-- ==== Sys2Proof/Word.lean ====
section
/-! DEFINITION. The word types of the GIU (spec 00_scope.md R4, R8) and the register number. -/

namespace Sys2Proof

/-- A command word and every bus-visible register: 32 bits (R4, R8). -/
abbrev Word := BitVec 32

/-- A byte offset into the 256-byte register window, `addr[7:0]` (R30, R31). -/
abbrev Offset := BitVec 8

/-- A Gaussian register number, `0..15`, naming `G[0]` to `G[15]` (R12, R13). -/
abbrev Reg := Fin 16

end Sys2Proof
end

