-- ==== Sys2Proof/Syntax.lean ====
section
/-! DEFINITION. The commands of the GIU: one constructor per row of spec/opcode_table.json (30_encoding.md R56, R57). -/

namespace Sys2Proof

/-- The constants the LDC selector names (30_encoding.md R55; 10_state.md R14). -/
inductive GConst where
  /-- selector 0, `ZERO = (0,0)` -/
  | zero
  /-- selector 1, `ONE = (1,0)` -/
  | one
  /-- selector 2, `I = (0,1)` -/
  | i
deriving DecidableEq, Repr

/-- The command set. Operands stand in the order of the fields of R53: destinations first, then sources. -/
inductive Instr where
  /-- `add gD, gX, gY` (R72) -/
  | add (rd rs1 rs2 : Reg)
  /-- `sub gD, gX, gY` (R73) -/
  | sub (rd rs1 rs2 : Reg)
  /-- `mul gD, gX, gY` (R74) -/
  | mul (rd rs1 rs2 : Reg)
  /-- `conj gD, gX` (R75) -/
  | conj (rd rs1 : Reg)
  /-- `norm gX` (R76) -/
  | norm (rs1 : Reg)
  /-- `ldc gD, K` (R77) -/
  | ldc (rd : Reg) (k : GConst)
  /-- `eq gX, gY` (R80) -/
  | eq (rs1 rs2 : Reg)
  /-- `iszero gX` (R81) -/
  | iszero (rs1 : Reg)
  /-- `isunit gX` (R82) -/
  | isunit (rs1 : Reg)
  /-- `isassoc gX, gY` (R83) -/
  | isassoc (rs1 rs2 : Reg)
  /-- `div gQ, gR, gN, gD`: quotient, remainder, dividend, divisor (R92) -/
  | div (rd rd2 rs1 rs2 : Reg)
  /-- `gcd gG, gA, gB` (R100) -/
  | gcd (rd rs1 rs2 : Reg)
  /-- `xgcd gG, gS, gT, gA, gB` (R102) -/
  | xgcd (rd rd2 rd3 rs1 rs2 : Reg)
deriving DecidableEq, Repr

end Sys2Proof
end

