-- ==== Sys2Proof/WellFormed.lean ====
section
/-! DEFINITION. Which commands as syntax have an encoding (30_encoding.md R58). -/

namespace Sys2Proof

/-- The destinations of a command that writes several results differ (R58 (3) and (4)); every other command is well formed:
every register number names a register (R54) and every `GConst` has a selector (R55). -/
def Instr.wellFormed : Instr → Bool
  | .add _ _ _ => true
  | .sub _ _ _ => true
  | .mul _ _ _ => true
  | .conj _ _ => true
  | .norm _ => true
  | .ldc _ _ => true
  | .eq _ _ => true
  | .iszero _ => true
  | .isunit _ => true
  | .isassoc _ _ => true
  | .div rd rd2 _ _ => rd != rd2
  | .gcd _ _ _ => true
  | .xgcd rd rd2 rd3 _ _ => rd != rd2 && rd != rd3 && rd2 != rd3

end Sys2Proof
end

