-- ==== Sys2Proof/Decode.lean ====
section
/-! DEFINITION. From a command word to a command and back (30_encoding.md R53 to R61).
Decoding is total: every word is one command or is ILLEGAL, for a reason that has a name (R59, R113). -/

namespace Sys2Proof

/-- The one format (R53). -/
structure Fields where
  /-- bits 31:24 -/
  opc : BitVec 8
  /-- bits 23:20 -/
  rd  : BitVec 4
  /-- bits 19:16 -/
  rd2 : BitVec 4
  /-- bits 15:12 -/
  rd3 : BitVec 4
  /-- bits 11:8 -/
  rs1 : BitVec 4
  /-- bits 7:4 -/
  rs2 : BitVec 4
  /-- bits 3:0 -/
  imm : BitVec 4
deriving DecidableEq, Repr

/-- Why a word is ILLEGAL: the list of R113. -/
inductive Illegal where
  /-- the operation code is not defined (R56) -/
  | undefinedOpcode
  /-- a field the operation does not use is not zero (R57) -/
  | unusedFieldNonzero
  /-- an LDC selector above 2 (R55) -/
  | badSelector
  /-- equal DIV destinations (R58 (3)) -/
  | equalDivDestinations
  /-- XGCD destinations that are not pairwise different (R58 (4)) -/
  | equalXgcdDestinations
deriving DecidableEq, Repr

/-- The fields of a word, at the bit positions of R53. -/
def fieldsOf (u : Word) : Fields :=
  { opc := u.extractLsb' 24 8
    rd  := u.extractLsb' 20 4
    rd2 := u.extractLsb' 16 4
    rd3 := u.extractLsb' 12 4
    rs1 := u.extractLsb' 8 4
    rs2 := u.extractLsb' 4 4
    imm := u.extractLsb' 0 4 }

/-- The word with the given fields, the most significant on the left as in the picture of R53. -/
def wordOf (f : Fields) : Word :=
  f.opc ++ f.rd ++ f.rd2 ++ f.rd3 ++ f.rs1 ++ f.rs2 ++ f.imm

/-- A 4-bit register field names a register, whatever its value (R54). -/
def regOf (b : BitVec 4) : Reg := b.toFin

/-- The 4-bit field that names a register. -/
def regBits (r : Reg) : BitVec 4 := BitVec.ofFin r

/-- "Must be zero" is checked on the fields' values (R57). -/
def ifZero (fs : List (BitVec 4)) (r : Except Illegal Instr) : Except Illegal Instr :=
  if fs.all (fun f => f == 0#4) then r else .error .unusedFieldNonzero

/-- The LDC constant selector (R55). -/
def selectorOf (imm : BitVec 4) : Except Illegal GConst :=
  match imm.toNat with
  | 0 => .ok .zero
  | 1 => .ok .one
  | 2 => .ok .i
  | _ => .error .badSelector

/-- The selector value of a constant (R55). -/
def selectorBits : GConst → BitVec 4
  | .zero => 0#4
  | .one => 1#4
  | .i => 2#4

/-- LDC's selector is checked after its unused fields (R58 (1), (2)). -/
def decodeLdc (f : Fields) : Except Illegal Instr :=
  match selectorOf f.imm with
  | .ok k => .ok (.ldc (regOf f.rd) k)
  | .error e => .error e

/-- DIV's destinations must differ (R58 (3)). -/
def decodeDiv (f : Fields) : Except Illegal Instr :=
  if f.rd = f.rd2 then .error .equalDivDestinations
  else .ok (.div (regOf f.rd) (regOf f.rd2) (regOf f.rs1) (regOf f.rs2))

/-- XGCD's destinations must be pairwise different (R58 (4)). -/
def decodeXgcd (f : Fields) : Except Illegal Instr :=
  if f.rd = f.rd2 ∨ f.rd = f.rd3 ∨ f.rd2 = f.rd3 then .error .equalXgcdDestinations
  else .ok (.xgcd (regOf f.rd) (regOf f.rd2) (regOf f.rd3) (regOf f.rs1) (regOf f.rs2))

/-- The opcode map of R56 with the field use of R57. -/
def decodeFields (f : Fields) : Except Illegal Instr :=
  match f.opc.toNat with
  | 0x01 => ifZero [f.rd2, f.rd3, f.imm] (.ok (.add (regOf f.rd) (regOf f.rs1) (regOf f.rs2)))
  | 0x02 => ifZero [f.rd2, f.rd3, f.imm] (.ok (.sub (regOf f.rd) (regOf f.rs1) (regOf f.rs2)))
  | 0x03 => ifZero [f.rd2, f.rd3, f.imm] (.ok (.mul (regOf f.rd) (regOf f.rs1) (regOf f.rs2)))
  | 0x04 => ifZero [f.rd2, f.rd3, f.rs2, f.imm] (.ok (.conj (regOf f.rd) (regOf f.rs1)))
  | 0x05 => ifZero [f.rd, f.rd2, f.rd3, f.rs2, f.imm] (.ok (.norm (regOf f.rs1)))
  | 0x06 => ifZero [f.rd2, f.rd3, f.rs1, f.rs2] (decodeLdc f)
  | 0x10 => ifZero [f.rd, f.rd2, f.rd3, f.imm] (.ok (.eq (regOf f.rs1) (regOf f.rs2)))
  | 0x11 => ifZero [f.rd, f.rd2, f.rd3, f.rs2, f.imm] (.ok (.iszero (regOf f.rs1)))
  | 0x12 => ifZero [f.rd, f.rd2, f.rd3, f.rs2, f.imm] (.ok (.isunit (regOf f.rs1)))
  | 0x13 => ifZero [f.rd, f.rd2, f.rd3, f.imm] (.ok (.isassoc (regOf f.rs1) (regOf f.rs2)))
  | 0x20 => ifZero [f.rd3, f.imm] (decodeDiv f)
  | 0x21 => ifZero [f.rd2, f.rd3, f.imm] (.ok (.gcd (regOf f.rd) (regOf f.rs1) (regOf f.rs2)))
  | 0x22 => ifZero [f.imm] (decodeXgcd f)
  | _ => .error .undefinedOpcode

/-- The decoder: total on 32-bit words (R59), the same at all times (R60). -/
def decode (u : Word) : Except Illegal Instr := decodeFields (fieldsOf u)

/-- A word is legal when it decodes to a command (R58). -/
def isLegal (u : Word) : Bool :=
  match decode u with
  | .ok _ => true
  | .error _ => false

/-- The fields of a command, unused fields zero (R57, R61). -/
def encodeFields : Instr → Fields
  | .add rd rs1 rs2 => ⟨0x01#8, regBits rd, 0#4, 0#4, regBits rs1, regBits rs2, 0#4⟩
  | .sub rd rs1 rs2 => ⟨0x02#8, regBits rd, 0#4, 0#4, regBits rs1, regBits rs2, 0#4⟩
  | .mul rd rs1 rs2 => ⟨0x03#8, regBits rd, 0#4, 0#4, regBits rs1, regBits rs2, 0#4⟩
  | .conj rd rs1 => ⟨0x04#8, regBits rd, 0#4, 0#4, regBits rs1, 0#4, 0#4⟩
  | .norm rs1 => ⟨0x05#8, 0#4, 0#4, 0#4, regBits rs1, 0#4, 0#4⟩
  | .ldc rd k => ⟨0x06#8, regBits rd, 0#4, 0#4, 0#4, 0#4, selectorBits k⟩
  | .eq rs1 rs2 => ⟨0x10#8, 0#4, 0#4, 0#4, regBits rs1, regBits rs2, 0#4⟩
  | .iszero rs1 => ⟨0x11#8, 0#4, 0#4, 0#4, regBits rs1, 0#4, 0#4⟩
  | .isunit rs1 => ⟨0x12#8, 0#4, 0#4, 0#4, regBits rs1, 0#4, 0#4⟩
  | .isassoc rs1 rs2 => ⟨0x13#8, 0#4, 0#4, 0#4, regBits rs1, regBits rs2, 0#4⟩
  | .div rd rd2 rs1 rs2 => ⟨0x20#8, regBits rd, regBits rd2, 0#4, regBits rs1, regBits rs2, 0#4⟩
  | .gcd rd rs1 rs2 => ⟨0x21#8, regBits rd, 0#4, 0#4, regBits rs1, regBits rs2, 0#4⟩
  | .xgcd rd rd2 rd3 rs1 rs2 =>
    ⟨0x22#8, regBits rd, regBits rd2, regBits rd3, regBits rs1, regBits rs2, 0#4⟩

/-- The encoder: the command word of a well-formed command (R61). -/
def encode (i : Instr) : Word := wordOf (encodeFields i)

/-- One row of R57's table of masks, with the extra condition of R58 where it has one. -/
structure Row where
  /-- the mnemonic as the table has it -/
  mnemonic : String
  /-- the bits the row fixes -/
  mask : Word
  /-- their values -/
  pat : Word
  /-- the extra condition of R58 (2), (3), (4) on the word -/
  extra : Word → Bool

/-- R57's masks and matches. A second transcription of the encoding, independent of `decodeFields`:
the two are compared by statement, never used for one another. -/
def rows : List Row :=
  [ ⟨"ADD", 0xFF0FF00F#32, 0x01000000#32, fun _ => true⟩,
    ⟨"SUB", 0xFF0FF00F#32, 0x02000000#32, fun _ => true⟩,
    ⟨"MUL", 0xFF0FF00F#32, 0x03000000#32, fun _ => true⟩,
    ⟨"CONJ", 0xFF0FF0FF#32, 0x04000000#32, fun _ => true⟩,
    ⟨"NORM", 0xFFFFF0FF#32, 0x05000000#32, fun _ => true⟩,
    ⟨"LDC", 0xFF0FFFF0#32, 0x06000000#32, fun u => decide ((u.extractLsb' 0 4).toNat ≤ 2)⟩,
    ⟨"EQ", 0xFFFFF00F#32, 0x10000000#32, fun _ => true⟩,
    ⟨"ISZERO", 0xFFFFF0FF#32, 0x11000000#32, fun _ => true⟩,
    ⟨"ISUNIT", 0xFFFFF0FF#32, 0x12000000#32, fun _ => true⟩,
    ⟨"ISASSOC", 0xFFFFF00F#32, 0x13000000#32, fun _ => true⟩,
    ⟨"DIV", 0xFF00F00F#32, 0x20000000#32, fun u => u.extractLsb' 20 4 != u.extractLsb' 16 4⟩,
    ⟨"GCD", 0xFF0FF00F#32, 0x21000000#32, fun _ => true⟩,
    ⟨"XGCD", 0xFF00000F#32, 0x22000000#32, fun u =>
      u.extractLsb' 20 4 != u.extractLsb' 16 4 && u.extractLsb' 20 4 != u.extractLsb' 12 4
        && u.extractLsb' 16 4 != u.extractLsb' 12 4⟩ ]

/-- `u` is a word of the row: R57's "a word `u` selects a mnemonic when `u AND mask == match`", with R58's extra condition. -/
def Row.selects (r : Row) (u : Word) : Bool := u &&& r.mask == r.pat && r.extra u

/-- A command's mnemonic (R56). -/
def Instr.mnemonic : Instr → String
  | .add _ _ _ => "ADD"
  | .sub _ _ _ => "SUB"
  | .mul _ _ _ => "MUL"
  | .conj _ _ => "CONJ"
  | .norm _ => "NORM"
  | .ldc _ _ => "LDC"
  | .eq _ _ => "EQ"
  | .iszero _ => "ISZERO"
  | .isunit _ => "ISUNIT"
  | .isassoc _ _ => "ISASSOC"
  | .div _ _ _ _ => "DIV"
  | .gcd _ _ _ => "GCD"
  | .xgcd _ _ _ _ _ => "XGCD"

/-- The command word whose bits are `w`, in the opcode table's numbering: every command is one 32-bit word (R60), and the
bits above `nbits` are zero. -/
def tableWord (nbits w : Nat) : Word := BitVec.ofNat 32 (w % 2 ^ nbits)

/-- The command the decoder reads from the word whose bits are `w`; none where the word is ILLEGAL. -/
def decodeTableWord (nbits w : Nat) : Option Instr :=
  match decode (tableWord nbits w) with
  | .ok i => some i
  | .error _ => none

end Sys2Proof
end

