-- ==== Sys2Proof/Config.lean ====
section
/-! DEFINITION. What is fixed for the hardware and is no state (spec 00_scope.md R5, 70_reset_and_hazards.md R132):
the tie rule, the placement of the window, the latency, the identification word.
A parameter the spec leaves OPEN is an opaque constant: no proof can see its value, so a claim holds whatever it is. -/

namespace Sys2Proof

/-- The two tie rules the parameter `TIE_RULE` may name (R5, R90). -/
inductive TieRule where
  /-- `HALF_AWAY_FROM_ZERO`, the spec's default -/
  | halfAwayFromZero
  /-- `HALF_TO_EVEN` -/
  | halfToEven
deriving DecidableEq, Repr, Inhabited

namespace Config

/-- `TIE_RULE` (R5, R90): one rule for every division, fixed for the life of the hardware; which one is left open.
Log entry 2. -/
opaque tieRule : TieRule

/-- `LATENCY` (R5, R142): finite, otherwise unspecified, possibly different for each command.
FREE VALUE: `latency n` is how many well-formed STATUS reads the block can still serve with `BUSY = 1` after
accepting its `n`-th command. Log entry 3. -/
opaque latency : Nat → Nat

/-- The window's place, in units of 256 bytes. Left open by the spec (R5, R32). Log entry 4. -/
opaque giuBlock : Nat

/-- `GIU_BASE` (R5, R32): any 256-byte-aligned address. -/
def giuBase : Nat := 256 * giuBlock

/-- The constant identification word (R2, R22): ASCII "GI", major 0x00, minor 0x01. -/
def idWord : Word := 0x47490001#32

end Config

end Sys2Proof
end

