-- ==== Sys2Proof/Machine/State.lean ====
section
/-! DEFINITION. The state of the GIU as plain data (10_state.md R11) and its reset (70_reset_and_hazards.md R132),
with the types of values, bus inputs and outcomes. -/

namespace Sys2Proof.Machine

open Sys2Proof

/-- An exact Gaussian value `re + im·i` over the integers (00_scope.md R7). It is what commands compute with. -/
structure Gauss where
  re : Int
  im : Int
deriving DecidableEq, Repr

/-- What one Gaussian register holds: two signed 32-bit components, in two's complement (R12). -/
structure GReg where
  re : BitVec 32
  im : BitVec 32
deriving DecidableEq, Repr

/-- The fault codes the block produces (60_exceptions.md R112). Code 0 (NONE) is no fault and has no constructor. -/
inductive FaultCode where
  /-- 1: a CMD write of a word that is not legal -/
  | illegal
  /-- 2: DIV by `(0,0)` -/
  | divzero
  /-- 3: an exact result to be written does not fit 32 bits -/
  | range
  /-- 4: a bus access that is not well-formed -/
  | access
deriving DecidableEq, Repr

/-- What an offset of the window reaches (R26). -/
inductive WinReg where
  | id
  | cmd
  | status
  | finfo
  | normLo
  | normHi
  | gRe (k : Reg)
  | gIm (k : Reg)
  | reserved
deriving DecidableEq, Repr

/-- What the outside world does at the block's ports (20_memory.md R30; 70_reset_and_hazards.md R131). -/
inductive PortInput where
  /-- a bus read of `size` bytes at offset `off` -/
  | read (off : Offset) (size : Nat)
  /-- a bus write of `size` bytes at offset `off`, with `wdata[31:0]` -/
  | write (off : Offset) (size : Nat) (wdata : Word)
  /-- `rst` is asserted and released -/
  | reset
deriving DecidableEq, Repr

/-- The state. The first group is R11's list, "exactly these fields, with the widths given in rules R12 to R24".
The second group is the model's own: the host at the port, and the latency the spec leaves open. -/
structure State where
  /-- the Gaussian register file `G[0..15]` (R12) -/
  g : Vector GReg 16
  /-- `NORM`, unsigned, 64 bits (R15) -/
  norm : BitVec 64
  /-- `PRED`, one bit (R16) -/
  pred : Bool
  /-- STATUS.BUSY (R20) -/
  busy : Bool
  /-- STATUS.WRAP, sticky (R21) -/
  wrap : Bool
  /-- STATUS.FAULT, sticky (R23) -/
  fault : Bool
  /-- STATUS.FCODE, 4 bits (R19, R23) -/
  fcode : BitVec 4
  /-- `FINFO`, 32 bits (R23) -/
  finfo : Word
  /-- `CMDLAST`, 32 bits (R17) -/
  cmdlast : Word
  /-- `ID`, 32 bits, constant (R22) -/
  id : Word
  /-- the hidden command slot: empty, or the one command word being executed (R24) -/
  pending : Option Word
  /-- MODEL'S OWN: what the outside world presents at the ports from here on, in arrival order; the head is next (R42).
  Log entry 5. -/
  port : List PortInput
  /-- MODEL'S OWN: `rdata[31:0]` of the last read the block completed (R30). Log entry 6. -/
  rdata : Word
  /-- MODEL'S OWN: how many more STATUS reads the executing command outlasts; drawn from `Config.latency`. Log entry 3. -/
  busyFor : Nat
  /-- MODEL'S OWN: how many commands have been accepted; the argument of the free value `Config.latency`. Log entry 3. -/
  seq : Nat
deriving DecidableEq, Repr

/-- The machine never stops: a GIU fault is a recorded event, after which the block goes on (60_exceptions.md R111), so no
step ends in a fault of the host's interface and there is no reason for one. Raised by nobody; safe. -/
inductive Fault where
deriving DecidableEq, Repr

/-- Reasons to have no meaning. -/
inductive Refusal where
  /-- Raised by an arm of `exec` whose instruction has no meaning yet; by none now. Safe: the machine stops. -/
  | notModelled (mnemonic : String)
deriving DecidableEq, Repr

/-- What a step or a meaning answers. -/
abbrev Outcome := Host.Outcome State Fault Refusal

/-- The state when reset is released (R132). The model's own fields start empty (log entries 3, 5, 6). -/
def State.reset : State :=
  { g := Vector.replicate 16 ⟨0#32, 0#32⟩
    norm := 0#64
    pred := false
    busy := false
    wrap := false
    fault := false
    fcode := 0#4
    finfo := 0#32
    cmdlast := 0#32
    id := Config.idWord
    pending := none
    port := []
    rdata := 0#32
    busyFor := 0
    seq := 0 }

end Sys2Proof.Machine
end

