-- ==== Sys2Proof/Machine/Operands.lean ====
section
/-! DEFINITION. Exact Gaussian arithmetic and the 32-bit values of the registers (00_scope.md R6, R7), and the operands of
commands (30_encoding.md R54, R55). -/

namespace Sys2Proof.Machine

open Sys2Proof

/-- `fits32` (R6): `v` is a signed 32-bit value. -/
abbrev fits32 (v : Int) : Prop := -2147483648 ≤ v ∧ v ≤ 2147483647

/-- `wrap32` (R6), as the 32 bits that hold it: the two's-complement word congruent to `v` modulo `2^32`. -/
def wrap32 (v : Int) : BitVec 32 := BitVec.ofInt 32 v

/-- `fitsG` (R7): the value is representable. -/
abbrev Gauss.fits (v : Gauss) : Prop := fits32 v.re ∧ fits32 v.im

/-- `wrapG` (R7), as register contents. -/
def Gauss.wrapped (v : Gauss) : GReg := ⟨wrap32 v.re, wrap32 v.im⟩

/-- The Gaussian value a register holds (R12). -/
def GReg.val (x : GReg) : Gauss := ⟨x.re.toInt, x.im.toInt⟩

/-- `x + y` (R7) -/
def Gauss.add (x y : Gauss) : Gauss := ⟨x.re + y.re, x.im + y.im⟩

/-- `x - y` (R7) -/
def Gauss.sub (x y : Gauss) : Gauss := ⟨x.re - y.re, x.im - y.im⟩

/-- `x * y` (R7) -/
def Gauss.mul (x y : Gauss) : Gauss := ⟨x.re * y.re - x.im * y.im, x.re * y.im + x.im * y.re⟩

/-- `-x` (R7) -/
def Gauss.neg (x : Gauss) : Gauss := ⟨-x.re, -x.im⟩

/-- `conj(x)` (R7) -/
def Gauss.conj (x : Gauss) : Gauss := ⟨x.re, -x.im⟩

/-- `N(x)` (R7) -/
def Gauss.norm (x : Gauss) : Int := x.re * x.re + x.im * x.im

/-- `ZERO` (R7, R14) -/
def Gauss.zero : Gauss := ⟨0, 0⟩

/-- `ONE` (R7, R14) -/
def Gauss.one : Gauss := ⟨1, 0⟩

/-- `I` (R7, R14) -/
def Gauss.imag : Gauss := ⟨0, 1⟩

/-- The value an LDC selector stands for (R55). -/
def constValue : GConst → Gauss
  | .zero => Gauss.zero
  | .one => Gauss.one
  | .i => Gauss.imag

/-- `G[k]` as an operand (00_scope.md R9): the exact value the register holds. -/
def State.readG (s : State) (k : Reg) : Gauss := (s.g[k]).val

end Sys2Proof.Machine
end

