-- ==== Sys2Proof/Machine/Flags.lean ====
section
/-! DEFINITION. The bits of STATUS: what each becomes (10_state.md R19 to R23, R29; 41_predicates.md), and the
status word (R19). -/

namespace Sys2Proof.Machine

open Sys2Proof

/-- WRAP after an exact result `v` is written: set when a component does not fit, never cleared here
(40_ring_ops.md R65; R21). -/
def wrapFlag (old : Bool) (v : Gauss) : Bool := old || !decide v.fits

/-- EQ's predicate (R80). -/
def predEq (x y : Gauss) : Bool := x.re == y.re && x.im == y.im

/-- ISZERO's predicate (R81); also the test for `(0,0)` of DIV, GCD and XGCD. -/
def Gauss.isZero (x : Gauss) : Bool := x.re == 0 && x.im == 0

/-- ISUNIT's predicate (R82), exact. -/
def predIsUnit (x : Gauss) : Bool := x.re * x.re + x.im * x.im == 1

/-- ISASSOC's predicate (R83): `x` is one of `y·1`, `y·(-1)`, `y·i`, `y·(-i)`, the products exact. -/
def predIsAssoc (x y : Gauss) : Bool :=
  predEq x ⟨y.re, y.im⟩ || predEq x ⟨-y.re, -y.im⟩ || predEq x ⟨-y.im, y.re⟩ || predEq x ⟨y.im, -y.re⟩

/-- The number of a fault code (60_exceptions.md R112). -/
def FaultCode.bits : FaultCode → BitVec 4
  | .illegal => 1#4
  | .divzero => 2#4
  | .range => 3#4
  | .access => 4#4

/-- The STATUS word (R19, 20_memory.md R39): FCODE in bits 7:4, then FAULT, WRAP, PRED, BUSY down to bit 0; the rest 0. -/
def State.statusWord (s : State) : Word :=
  (s.fcode ++ BitVec.ofBool s.fault ++ BitVec.ofBool s.wrap ++ BitVec.ofBool s.pred ++ BitVec.ofBool s.busy
    : BitVec (4 + 1 + 1 + 1 + 1)).setWidth 32

end Sys2Proof.Machine
end

