-- ==== Sys2Proof/Machine/Ops.lean ====
section
/-! DEFINITION. The shared operations on the state: writing results, completing a command, raising a fault and clearing it.
The GIU has no data memory (20_memory.md R31); what stands at addresses is the register window, in Machine/Bus.lean. -/

namespace Sys2Proof.Machine

open Sys2Proof

/-- `G[k] <- v` for a value that fits (00_scope.md R9; R77, R92, R100, R102). No flag changes. -/
def State.putG (k : Reg) (v : Gauss) (s : State) : State := { s with g := s.g.set k v.wrapped }

/-- `writeG(k, v)` (40_ring_ops.md R65): the wrapped value is written and WRAP records a component that did not fit. -/
def State.writeG (k : Reg) (v : Gauss) (s : State) : State :=
  { s with g := s.g.set k v.wrapped, wrap := wrapFlag s.wrap v }

/-- `NORM <- n` (R76): `n` is in `[0, 2^63]` and stands unsigned in 64 bits. -/
def State.writeNorm (n : Int) (s : State) : State := { s with norm := BitVec.ofInt 64 n }

/-- `PRED <- b` (R16). -/
def State.writePred (b : Bool) (s : State) : State := { s with pred := b }

/-- A command completes (10_state.md R24): the slot empties and BUSY clears, in the step that writes its results. -/
def State.finish (s : State) : State := { s with pending := none, busy := false, busyFor := 0 }

/-- TAKING A FAULT: `raise Fault(code, info)` (60_exceptions.md R117). The first record since the last clear is kept; FAULT is
set; the command, if any, ends. Nothing else changes. -/
def State.raise (code : FaultCode) (info : Word) (s : State) : State :=
  { s with
    fcode := if s.fault then s.fcode else code.bits
    finfo := if s.fault then s.finfo else info
    fault := true
    pending := none
    busy := false
    busyFor := 0 }

/-- RETURNING FROM A FAULT (R121): FAULT, FCODE and FINFO go to 0 in one step. -/
def State.clearFault (s : State) : State := { s with fault := false, fcode := 0#4, finfo := 0#32 }

/-- WRAP is cleared (R21). -/
def State.clearWrap (s : State) : State := { s with wrap := false }

/-- A write of `u` to STATUS (R19): bit 2 set clears WRAP, bit 3 set clears the fault record; a bit written 0 leaves its field,
and BUSY, PRED and FCODE take no write. -/
def State.writeStatus (u : Word) (s : State) : State :=
  let s2 := if u[2] then s.clearWrap else s
  if u[3] then s2.clearFault else s2

/-- The information word of a fault that command `i` raises: its command word `u` (R112). A legal word is the encoding of the
command it decodes to, so `encode i` is `u`. Log entry 7. -/
def State.raiseCmd (code : FaultCode) (i : Instr) (s : State) : State := s.raise code (encode i)

end Sys2Proof.Machine
end

