-- ==== Sys2Proof/Machine/Bus.lean ====
section
/-! DEFINITION. The register window and the bus (10_state.md R26 to R28; 20_memory.md): reads, writes, the CMD write, malformed
accesses, the hold while BUSY, reset, and host addresses. -/

namespace Sys2Proof.Machine

open Sys2Proof

/-- The register map (R26). -/
def winReg (off : Offset) : WinReg :=
  if off.toNat < 4 then .id
  else if off.toNat < 8 then .cmd
  else if off.toNat < 12 then .status
  else if off.toNat < 16 then .finfo
  else if off.toNat < 20 then .normLo
  else if off.toNat < 24 then .normHi
  else if off.toNat < 64 then .reserved
  else if off.toNat < 192 then
    if (off.toNat - 64) % 8 < 4 then .gRe (Fin.ofNat 16 ((off.toNat - 64) / 8))
    else .gIm (Fin.ofNat 16 ((off.toNat - 64) / 8))
  else .reserved

/-- The word a register of the window reads as (R39, R27, R28). -/
def State.readReg (s : State) : WinReg → Word
  | .id => s.id
  | .cmd => s.cmdlast
  | .status => s.statusWord
  | .finfo => s.finfo
  | .normLo => s.norm.extractLsb' 0 32
  | .normHi => s.norm.extractLsb' 32 32
  | .gRe k => (s.g[k]).re
  | .gIm k => (s.g[k]).im
  | .reserved => 0#32

/-- The word at an offset of the window (R39). -/
def State.readWord (s : State) (off : Offset) : Word := s.readReg (winReg off)

/-- The byte at an offset of the window: little-endian lanes of the word it lies in (R35). Only a host that addresses the window
bytewise through a bridge of its own sees this view. -/
def State.windowByte (s : State) (off : Offset) : BitVec 8 :=
  (s.readWord off).extractLsb' (8 * (off.toNat % 4)) 8

/-- A CMD write accepted for execution (R41, R24): the slot fills and BUSY is set. How long the command executes is free
(R142). -/
def State.accept (u : Word) (s : State) : State :=
  { s with pending := some u, busy := true, busyFor := Config.latency s.seq, seq := s.seq + 1 }

/-- A well-formed write of `u` to CMD, performed (R41, R120, R113). -/
def State.issue (u : Word) (s : State) : State :=
  if s.fault then { s with cmdlast := u }
  else if isLegal u then { s with cmdlast := u }.accept u
  else { s with cmdlast := u }.raise .illegal u

/-- The effect of a well-formed write of `u` to a register of the window (R38, R27, R28, R19, R41). -/
def State.writeReg (u : Word) (s : State) : WinReg → State
  | .id => s
  | .cmd => s.issue u
  | .status => s.writeStatus u
  | .finfo => s
  | .normLo => s
  | .normHi => s
  | .gRe k => { s with g := s.g.set k ⟨u, (s.g[k]).im⟩ }
  | .gIm k => { s with g := s.g.set k ⟨(s.g[k]).re, u⟩ }
  | .reserved => s

/-- Well-formed (R33): 4 bytes at an offset that is a multiple of 4. -/
def wellFormedAccess (off : Offset) (size : Nat) : Bool := size == 4 && off.toNat % 4 == 0

/-- A well-formed read of STATUS, the one access served while BUSY (R40). -/
def isStatusRead (off : Offset) (size : Nat) : Bool := size == 4 && off == 8#8

/-- `raise Fault(ACCESS, offset)` (R34, R116). -/
def State.raiseAccess (off : Offset) (s : State) : State := s.raise .access (off.setWidth 32)

/-- A read is performed: the word on `rdata`, or 0 and ACCESS (R39, R34). No other effect (R38). -/
def State.doRead (off : Offset) (size : Nat) (s : State) : State :=
  if wellFormedAccess off size then { s with rdata := s.readWord off }
  else { s with rdata := 0#32 }.raiseAccess off

/-- A write is performed, or ignored with ACCESS (R38, R34). -/
def State.doWrite (off : Offset) (size : Nat) (u : Word) (s : State) : State :=
  if wellFormedAccess off size then s.writeReg u (winReg off)
  else s.raiseAccess off

/-- Reset is asserted and released (R131 to R133): every piece of the spec's state takes its reset value, whatever a command
had computed. The outside world (`port`), the last read's data and the count behind the free value are no state of the
block and stay. -/
def State.takeReset (s : State) : State :=
  { State.reset with port := s.port, rdata := s.rdata, seq := s.seq }

/-- The input at the head of the port is performed (R42: one at a time, in arrival order). With no input the block waits and
loses nothing (R130). -/
def State.serve (s : State) : State :=
  match s.port with
  | [] => s
  | .read off size :: rest => { s with port := rest }.doRead off size
  | .write off size u :: rest => { s with port := rest }.doWrite off size u
  | .reset :: rest => { s with port := rest }.takeReset

/-- Reset is at the head of the port. It is never held (R133). -/
def State.resetNext (s : State) : Bool :=
  match s.port with
  | .reset :: _ => true
  | _ => false

/-- The head of the port is a well-formed read of STATUS. -/
def State.statusReadNext (s : State) : Bool :=
  match s.port with
  | .read off size :: _ => isStatusRead off size
  | _ => false

/-- The executing command outlasts the STATUS read at the head of the port, so the read is performed now and answers
BUSY = 1 (R40). Every other access is held. -/
def State.readsWhileBusy (s : State) : Bool := s.statusReadNext && decide (0 < s.busyFor)

/-- The STATUS read at the head of the port is performed while the command executes. -/
def State.serveWhileBusy (s : State) : State := { s.serve with busyFor := s.busyFor - 1 }

/-- The offset a host byte address reaches; none where the address is not the block's (R31). -/
def windowOffset? (a : Nat) : Option Offset :=
  if Config.giuBase ≤ a ∧ a < Config.giuBase + 0x100 then some (BitVec.ofNat 8 (a - Config.giuBase)) else none

/-- A host presents an input at the port, behind those already there (R42, R47: any host, one order). -/
def State.present (p : PortInput) (s : State) : State := { s with port := s.port ++ [p] }

/-- `MemRead(a, n)` as a host issues it (00_scope.md R9, R31); none where the address is not the block's. -/
def State.memRead (a n : Nat) (s : State) : Option State :=
  (windowOffset? a).map fun off => s.present (.read off n)

/-- `MemWrite(a, n, v)` as a host issues it (R9, R31); none where the address is not the block's. -/
def State.memWrite (a n : Nat) (v : Word) (s : State) : Option State :=
  (windowOffset? a).map fun off => s.present (.write off n v)

end Sys2Proof.Machine
end

