-- ==== Sys2Proof/Machine/Division.lean ====
section
/-! DEFINITION. The euclidean_divider (42_division.md): the division function of R88 to R91, exact and with no floating point
(R95), and DIV (R92). -/

namespace Sys2Proof.Machine

open Sys2Proof

/-- `P_re`, the real part of `n * conj(d)` (R88). -/
def quotRe (n d : Gauss) : Int := n.re * d.re + n.im * d.im

/-- `P_im`, the imaginary part of `n * conj(d)` (R88). -/
def quotIm (n d : Gauss) : Int := n.im * d.re - n.re * d.im

/-- `tie(p, f)`: which of `f` and `f + 1` a coordinate exactly halfway between them rounds to (R90). -/
def tie (t : TieRule) (p f : Int) : Int :=
  match t with
  | .halfAwayFromZero => if 0 < p then f + 1 else f
  | .halfToEven => if f % 2 = 0 then f else f + 1

/-- `roundq(p, m)` for `m ≥ 1` (R89): the integer nearest to `p / m`. Lean's `/` on `Int` is the floor for `m > 0` (R6). -/
def roundq (t : TieRule) (p m : Int) : Int :=
  if 2 * (p - p / m * m) < m then p / m
  else if m < 2 * (p - p / m * m) then p / m + 1
  else tie t p (p / m)

/-- The quotient of `divG` (R91). -/
def quotG (t : TieRule) (n d : Gauss) : Gauss :=
  ⟨roundq t (quotRe n d) d.norm, roundq t (quotIm n d) d.norm⟩

/-- The remainder of `divG` (R91): `n - d*q`, exact. -/
def remG (t : TieRule) (n d : Gauss) : Gauss := n.sub (d.mul (quotG t n d))

/-- DIV (R92). DIVZERO is checked before the division, RANGE after it (60_exceptions.md R119); on either no register is
written. -/
def execDiv (rd rd2 rs1 rs2 : Reg) (s : State) : Outcome :=
  if (s.readG rs2).isZero then .next (s.raiseCmd .divzero (.div rd rd2 rs1 rs2))
  else if (quotG Config.tieRule (s.readG rs1) (s.readG rs2)).fits
      ∧ (remG Config.tieRule (s.readG rs1) (s.readG rs2)).fits then
    .next ((s.putG rd (quotG Config.tieRule (s.readG rs1) (s.readG rs2))).putG rd2
      (remG Config.tieRule (s.readG rs1) (s.readG rs2))).finish
  else .next (s.raiseCmd .range (.div rd rd2 rs1 rs2))

end Sys2Proof.Machine
end

