-- ==== Sys2Proof/Machine/Gcd.lean ====
section
/-! DEFINITION. The gcd_engine and the xgcd_engine (43_gcd.md), on exact integers with no range check inside the loops (R99).
Each loop runs at most 64 iterations (R108), so fuel 64 is enough (R106). -/

namespace Sys2Proof.Machine

open Sys2Proof

/-- The iterations an engine's loop can run (R108). -/
def loopFuel : Nat := 64

/-- R100's loop on the pair `(x, y)`: it ends when `y` is `(0,0)`. -/
def gcdLoop (t : TieRule) : Nat → Gauss → Gauss → Gauss
  | 0, x, _ => x
  | n + 1, x, y => if y.isZero then x else gcdLoop t n y (remG t x y)

/-- The `g` of GCD (R100). -/
def gcdG (t : TieRule) (a b : Gauss) : Gauss := gcdLoop t loopFuel a b

/-- GCD (R100). RANGE is checked on the final `g` only (R107). -/
def execGcd (rd rs1 rs2 : Reg) (s : State) : Outcome :=
  if (gcdG Config.tieRule (s.readG rs1) (s.readG rs2)).fits then
    .next (s.putG rd (gcdG Config.tieRule (s.readG rs1) (s.readG rs2))).finish
  else .next (s.raiseCmd .range (.gcd rd rs1 rs2))

/-- The xgcd_engine's three pairs of slots (R102). -/
structure XSlots where
  oldR : Gauss
  r : Gauss
  oldS : Gauss
  s : Gauss
  oldT : Gauss
  t : Gauss
deriving DecidableEq, Repr

/-- The slots before the first iteration (R102; 90_conflicts.md C2). -/
def xgcdInit (a b : Gauss) : XSlots := ⟨a, b, Gauss.one, Gauss.zero, Gauss.zero, Gauss.one⟩

/-- One iteration of R102: the three pairs are updated with the same quotient. -/
def xgcdStep (t : TieRule) (v : XSlots) : XSlots :=
  { oldR := v.r
    r := remG t v.oldR v.r
    oldS := v.s
    s := v.oldS.sub ((quotG t v.oldR v.r).mul v.s)
    oldT := v.t
    t := v.oldT.sub ((quotG t v.oldR v.r).mul v.t) }

/-- R102's loop: it ends when `r` is `(0,0)`. -/
def xgcdLoop (t : TieRule) : Nat → XSlots → XSlots
  | 0, v => v
  | n + 1, v => if v.r.isZero then v else xgcdLoop t n (xgcdStep t v)

/-- The slots at the end of XGCD's loop: `g`, `s`, `t` are `oldR`, `oldS`, `oldT` (R102). -/
def xgcdG (t : TieRule) (a b : Gauss) : XSlots := xgcdLoop t loopFuel (xgcdInit a b)

/-- The three results of XGCD fit (R107). -/
abbrev XSlots.fits (v : XSlots) : Prop := v.oldR.fits ∧ v.oldS.fits ∧ v.oldT.fits

/-- XGCD (R102). The three results are written together, or none is (R105). -/
def execXgcd (rd rd2 rd3 rs1 rs2 : Reg) (s : State) : Outcome :=
  if (xgcdG Config.tieRule (s.readG rs1) (s.readG rs2)).fits then
    .next (((s.putG rd (xgcdG Config.tieRule (s.readG rs1) (s.readG rs2)).oldR).putG rd2
      (xgcdG Config.tieRule (s.readG rs1) (s.readG rs2)).oldS).putG rd3
      (xgcdG Config.tieRule (s.readG rs1) (s.readG rs2)).oldT).finish
  else .next (s.raiseCmd .range (.xgcd rd rd2 rd3 rs1 rs2))

end Sys2Proof.Machine
end

