-- ==== Sys2Proof/Machine/Predicates.lean ====
section
/-! DEFINITION. The predicates EQ, ISZERO, ISUNIT, ISASSOC (41_predicates.md): each writes PRED and nothing else. -/

namespace Sys2Proof.Machine

open Sys2Proof

/-- EQ (R80). -/
def execEq (rs1 rs2 : Reg) (s : State) : Outcome :=
  .next (s.writePred (predEq (s.readG rs1) (s.readG rs2))).finish

/-- ISZERO (R81). -/
def execIszero (rs1 : Reg) (s : State) : Outcome :=
  .next (s.writePred (s.readG rs1).isZero).finish

/-- ISUNIT (R82). -/
def execIsunit (rs1 : Reg) (s : State) : Outcome :=
  .next (s.writePred (predIsUnit (s.readG rs1))).finish

/-- ISASSOC (R83). -/
def execIsassoc (rs1 rs2 : Reg) (s : State) : Outcome :=
  .next (s.writePred (predIsAssoc (s.readG rs1) (s.readG rs2))).finish

end Sys2Proof.Machine
end

