-- ==== Sys2Proof/Machine/Ring.lean ====
section
/-! DEFINITION. The ring operations ADD, SUB, MUL, CONJ, NORM, LDC (40_ring_ops.md). Every source is read before the
destination is written (R64, R67); none can fault (R64). -/

namespace Sys2Proof.Machine

open Sys2Proof

/-- ADD (R72). -/
def execAdd (rd rs1 rs2 : Reg) (s : State) : Outcome :=
  .next (s.writeG rd ((s.readG rs1).add (s.readG rs2))).finish

/-- SUB (R73). -/
def execSub (rd rs1 rs2 : Reg) (s : State) : Outcome :=
  .next (s.writeG rd ((s.readG rs1).sub (s.readG rs2))).finish

/-- MUL (R74), all products exact (R66). -/
def execMul (rd rs1 rs2 : Reg) (s : State) : Outcome :=
  .next (s.writeG rd ((s.readG rs1).mul (s.readG rs2))).finish

/-- CONJ (R75). -/
def execConj (rd rs1 : Reg) (s : State) : Outcome :=
  .next (s.writeG rd (s.readG rs1).conj).finish

/-- NORM (R76). -/
def execNorm (rs1 : Reg) (s : State) : Outcome :=
  .next (s.writeNorm (s.readG rs1).norm).finish

/-- LDC (R77). -/
def execLdc (rd : Reg) (k : GConst) (s : State) : Outcome :=
  .next (s.putG rd (constValue k)).finish

end Sys2Proof.Machine
end

