-- ==== Sys2Proof/Machine/Dispatch.lean ====
section
/-! DEFINITION. One arm per command: the command's execution as one atomic step (43_gcd.md R106). -/

namespace Sys2Proof.Machine

open Sys2Proof

def exec (i : Instr) (s : State) : Host.Outcome State Fault Refusal :=
  match i with
  | .add rd rs1 rs2 => Sys2Proof.Machine.execAdd rd rs1 rs2 s
  | .sub rd rs1 rs2 => Sys2Proof.Machine.execSub rd rs1 rs2 s
  | .mul rd rs1 rs2 => Sys2Proof.Machine.execMul rd rs1 rs2 s
  | .conj rd rs1 => Sys2Proof.Machine.execConj rd rs1 s
  | .norm rs1 => Sys2Proof.Machine.execNorm rs1 s
  | .ldc rd k => Sys2Proof.Machine.execLdc rd k s
  | .eq rs1 rs2 => Sys2Proof.Machine.execEq rs1 rs2 s
  | .iszero rs1 => Sys2Proof.Machine.execIszero rs1 s
  | .isunit rs1 => Sys2Proof.Machine.execIsunit rs1 s
  | .isassoc rs1 rs2 => Sys2Proof.Machine.execIsassoc rs1 rs2 s
  | .div rd rd2 rs1 rs2 => Sys2Proof.Machine.execDiv rd rd2 rs1 rs2 s
  | .gcd rd rs1 rs2 => Sys2Proof.Machine.execGcd rd rs1 rs2 s
  | .xgcd rd rd2 rd3 rs1 rs2 => Sys2Proof.Machine.execXgcd rd rd2 rd3 rs1 rs2 s

end Sys2Proof.Machine
end

