-- ==== Sys2Proof/Machine/Step.lean ====
section
/-! DEFINITION. One step: reset, the completion of the executing command, or one bus access (20_memory.md R40 to R42). -/

namespace Sys2Proof.Machine

open Sys2Proof

/-- The command in the slot completes: it is decoded and executed as one atomic step (R41, R106). A word that is not legal never
reaches the slot from reset (R41, R58); from a state that holds one, the step records ILLEGAL as R58 says of such a word. -/
def runSlot (u : Word) (s : State) : Host.Outcome State Fault Refusal :=
  match decode u with
  | .ok i => exec i s
  | .error _ => .next (s.raise .illegal u)

/-- What happens next. Reset comes first (R133). While a command executes, a well-formed STATUS read at the head of the port is
performed as long as the command outlasts it, and every other access is held until the command completes (R40); otherwise
the access at the head of the port is performed (R42). -/
def step (s : State) : Host.Outcome State Fault Refusal :=
  match s.resetNext, s.pending with
  | true, _ => .next s.serve
  | false, none => .next s.serve
  | false, some u => if s.readsWhileBusy then .next s.serveWhileBusy else runSlot u s

/-- `s` with the command word of bits `w` in the command slot, where the block takes the command it executes next (R24), as the
acceptance of a CMD write leaves it (R41): CMDLAST holds the word and BUSY is set. The step then runs it whatever access is held: a
reset waiting at the port would come first and is taken away, and the latency still open is spent. Nothing else changes. Log entry 1
says how a program comes to run. -/
def State.withFetchWord (s : State) (nbits w : Nat) : State :=
  { s with
    pending := some (tableWord nbits w)
    cmdlast := tableWord nbits w
    busy := true
    busyFor := 0
    port := s.port.dropWhile (· == .reset) }

end Sys2Proof.Machine
end

