-- ==== Sys2Proof/Safety.lean ====
section
/-! DEFINITION. What counts as a safe state, and the terms the claims use: the invariant of every step, the spec's two loops as
relations, divisibility of Gaussian integers. -/

namespace Sys2Proof.Machine

open Sys2Proof

/-- The commands that can fault once legal (60_exceptions.md R112): DIV, GCD, XGCD. -/
def canFault : Instr → Bool
  | .add _ _ _ => false
  | .sub _ _ _ => false
  | .mul _ _ _ => false
  | .conj _ _ => false
  | .norm _ => false
  | .ldc _ _ => false
  | .eq _ _ => false
  | .iszero _ => false
  | .isunit _ => false
  | .isassoc _ _ => false
  | .div _ _ _ _ => true
  | .gcd _ _ _ => true
  | .xgcd _ _ _ _ _ => true

/-- The fault record says what R112 says: the code is one of 1 to 4, and FINFO is a word or an offset that can have raised it. -/
def State.FaultRecord (s : State) : Prop :=
  (s.fcode = 1#4 ∧ isLegal s.finfo = false)
    ∨ (s.fcode = 2#4 ∧ ∃ rd rd2 rs1 rs2, decode s.finfo = .ok (.div rd rd2 rs1 rs2))
    ∨ (s.fcode = 3#4 ∧ ∃ i, decode s.finfo = .ok i ∧ canFault i = true)
    ∨ (s.fcode = 4#4 ∧ s.finfo.toNat < 256)

/-- The invariant of the block: what holds at reset and every step keeps. -/
structure State.Inv (s : State) : Prop where
  /-- ID is constant (10_state.md R22) -/
  idConstant : s.id = Config.idWord
  /-- BUSY follows the slot (R24, R29) -/
  busyFollowsSlot : s.busy = s.pending.isSome
  /-- nothing is left of a latency while the block is idle (the model's own field) -/
  idleHasNoLatency : s.pending = none → s.busyFor = 0
  /-- the slot holds the last command written, a legal one, accepted while no fault was recorded (R24, R17, R41) -/
  slotHoldsAnAcceptedCommand : ∀ u, s.pending = some u → isLegal u = true ∧ s.cmdlast = u ∧ s.fault = false
  /-- with FAULT = 0 there is no record (R19, R23) -/
  noFaultNoRecord : s.fault = false → s.fcode = 0#4 ∧ s.finfo = 0#32
  /-- with FAULT = 1 the record is one of R112's -/
  faultHasRecord : s.fault = true → s.FaultRecord
  /-- NORM is in `[0, 2^63]` (R15) -/
  normBounded : s.norm.toNat ≤ 2 ^ 63

/-- R100's while loop: from the pair `(x, y)` it ends after `n` iterations with `x = g`. Written from the spec's pseudocode with
no fuel and no bound. -/
inductive GcdRun (t : TieRule) : Nat → Gauss → Gauss → Gauss → Prop where
  /-- the loop's test fails: `y` is `(0,0)` -/
  | done (x : Gauss) : GcdRun t 0 x Gauss.zero x
  /-- one iteration: `(_, rem) <- divG(x, y); (x, y) <- (y, rem)` -/
  | turn (n : Nat) (x y g : Gauss) (hy : y ≠ Gauss.zero) (h : GcdRun t n y (remG t x y) g) : GcdRun t (n + 1) x y g

/-- R102's while loop on the three pairs of slots: from `v` it ends after `n` iterations in `w`. -/
inductive XgcdRun (t : TieRule) : Nat → XSlots → XSlots → Prop where
  /-- the loop's test fails: `r` is `(0,0)` -/
  | done (v : XSlots) (hr : v.r = Gauss.zero) : XgcdRun t 0 v v
  /-- one iteration: the three pairs are updated with the quotient and remainder of `divG(old_r, r)` -/
  | turn (n : Nat) (v w : XSlots) (hr : v.r ≠ Gauss.zero)
      (h : XgcdRun t n
        ⟨v.r, remG t v.oldR v.r, v.s, v.oldS.sub ((quotG t v.oldR v.r).mul v.s), v.t,
          v.oldT.sub ((quotG t v.oldR v.r).mul v.t)⟩ w) : XgcdRun t (n + 1) v w

/-- `d` divides `x` in the Gaussian integers (43_gcd.md R101: "a Gaussian-integer multiple"). -/
def Gauss.Divides (d x : Gauss) : Prop := ∃ k : Gauss, x = d.mul k

/-- The commands whose result goes to PRED (10_state.md R16, R29). -/
def writesPred : Instr → Bool
  | .eq _ _ => true
  | .iszero _ => true
  | .isunit _ => true
  | .isassoc _ _ => true
  | .add _ _ _ => false
  | .sub _ _ _ => false
  | .mul _ _ _ => false
  | .conj _ _ => false
  | .norm _ => false
  | .ldc _ _ => false
  | .div _ _ _ _ => false
  | .gcd _ _ _ => false
  | .xgcd _ _ _ _ _ => false

/-- The commands that can set WRAP (R21, R29). -/
def canWrap : Instr → Bool
  | .add _ _ _ => true
  | .sub _ _ _ => true
  | .mul _ _ _ => true
  | .conj _ _ => true
  | .norm _ => false
  | .ldc _ _ => false
  | .eq _ _ => false
  | .iszero _ => false
  | .isunit _ => false
  | .isassoc _ _ => false
  | .div _ _ _ _ => false
  | .gcd _ _ _ => false
  | .xgcd _ _ _ _ _ => false

/-- The destination registers of a command; every other Gaussian register it leaves alone (R10, R13). -/
def destinations : Instr → List Reg
  | .add rd _ _ => [rd]
  | .sub rd _ _ => [rd]
  | .mul rd _ _ => [rd]
  | .conj rd _ => [rd]
  | .norm _ => []
  | .ldc rd _ => [rd]
  | .eq _ _ => []
  | .iszero _ => []
  | .isunit _ => []
  | .isassoc _ _ => []
  | .div rd rd2 _ _ => [rd, rd2]
  | .gcd rd _ _ => [rd]
  | .xgcd rd rd2 rd3 _ _ => [rd, rd2, rd3]

end Sys2Proof.Machine
end

