-- ==== Sys2Proof/Certificates/Slice0/Obligations.lean ====
section
/-! DEFINITION. The statements for the provers. Each docstring names the rule of the spec it formalises. `t` is a next state.
The fields `port`, `rdata`, `busyFor` and `seq` are the model's own (log entries 3, 5, 6): what a statement says of them is the
model's choice, not the spec's. -/

open Sys2Proof Sys2Proof.Machine

/-! ### Reset, the invariant, progress -/

/-- R132: the reset value of every piece of the spec's state. -/
def Obligations.ResetLeavesTheValuesOfR132 : Prop :=
  (∀ k : Reg, State.reset.readG k = ⟨0, 0⟩) ∧ State.reset.norm = 0#64 ∧ State.reset.pred = false
    ∧ State.reset.busy = false ∧ State.reset.wrap = false ∧ State.reset.fault = false ∧ State.reset.fcode = 0#4
    ∧ State.reset.finfo = 0#32 ∧ State.reset.cmdlast = 0#32 ∧ State.reset.pending = none
    ∧ State.reset.id = 0x47490001#32

/-- The invariant (ID constant, BUSY follows the slot, the slot holds an accepted command, the fault record is one of R112's,
NORM at most `2^63`) holds at reset. That BUSY, ID and `busyFor` agree with the rest is kept by invariant and not by type: the
model's choice, log entries 3 and 12. -/
def Obligations.InvariantHoldsAtReset : Prop := State.reset.Inv

/-- Every step from every state with the invariant keeps it (log entries 3, 12 as above). -/
def Obligations.EveryStepKeepsTheInvariant : Prop :=
  ∀ s t : State, s.Inv → step s = .next t → t.Inv

/-- No access, no command and no fault ever stops the machine: a fault is a recorded event (R111), from every state. From a state
whose slot holds a word that is not legal, which R41 never allows, the answer is the model's choice, log entry 9. -/
def Obligations.EveryStepAnswersANextState : Prop := ∀ s : State, ∃ t, step s = .next t

/-- Every command completes, whatever the latency and whatever the hosts present meanwhile, so a hold always ends (R40, R142):
the slot is empty after at most one step more than the STATUS reads the command outlasts. That latency is a count of STATUS reads is
the model's choice, log entry 3; that a word in the slot that is not legal, which R41 never allows, leaves it too is log entry 9. -/
def Obligations.EveryCommandCompletes : Prop :=
  ∀ s : State, ∃ n ≤ s.busyFor + 1, ∃ t : State, Sys2Proof.core.run n s = .next t ∧ t.pending = none

/-! ### Encoding -/

/-- R53: the fields' bit positions, and R61's word of given fields. -/
def Obligations.FieldsStandAtTheBitsOfR53 : Prop :=
  (∀ u : Word, (fieldsOf u).opc.toNat = u.toNat / 2 ^ 24 ∧ (fieldsOf u).rd.toNat = u.toNat / 2 ^ 20 % 16
    ∧ (fieldsOf u).rd2.toNat = u.toNat / 2 ^ 16 % 16 ∧ (fieldsOf u).rd3.toNat = u.toNat / 2 ^ 12 % 16
    ∧ (fieldsOf u).rs1.toNat = u.toNat / 2 ^ 8 % 16 ∧ (fieldsOf u).rs2.toNat = u.toNat / 2 ^ 4 % 16
    ∧ (fieldsOf u).imm.toNat = u.toNat % 16)
  ∧ ∀ (opc : BitVec 8) (rd rd2 rd3 rs1 rs2 imm : BitVec 4),
      (wordOf ⟨opc, rd, rd2, rd3, rs1, rs2, imm⟩).toNat
        = opc.toNat * 2 ^ 24 + rd.toNat * 2 ^ 20 + rd2.toNat * 2 ^ 16 + rd3.toNat * 2 ^ 12 + rs1.toNat * 2 ^ 8
          + rs2.toNat * 2 ^ 4 + imm.toNat

/-- Decoding the encoding of a well-formed command gives it back, every operand at every value. -/
def Obligations.DecodeOfEncodeIsTheCommand : Prop :=
  ∀ i : Instr, i.wellFormed = true → decode (encode i) = .ok i

/-- A word that decodes is the encoding of its one command, which is well formed: no two words mean one command, no bit of a
word is dropped (R59). -/
def Obligations.EncodeOfDecodeIsTheWord : Prop :=
  ∀ (u : Word) (i : Instr), decode u = .ok i → encode i = u ∧ i.wellFormed = true

/-- R58: a word is legal exactly when it matches a row of R57's table of masks and the row's extra condition; then it decodes to
that row's command, and to no other row's; a word that is not legal raises ILLEGAL at its CMD write and has no other effect
than the record (and CMDLAST, R41). -/
def Obligations.LegalWordsAreThoseOfR58 : Prop :=
  (∀ u : Word, isLegal u = true ↔ ∃ r ∈ rows, r.selects u = true)
  ∧ (∀ u : Word, ∀ r ∈ rows, ∀ i, r.selects u = true → decode u = .ok i → i.mnemonic = r.mnemonic)
  ∧ ∀ (s : State) (u : Word) (rest : List PortInput), s.pending = none → s.fault = false →
      s.port = .write 4#8 4 u :: rest → (∀ r ∈ rows, r.selects u = false) →
      step s = .next { s with
        port := rest, cmdlast := u, fault := true, fcode := 1#4, finfo := u, pending := none, busy := false, busyFor := 0 }

/-- Words written out from the spec's encodings, with the verdicts 95_test_vectors.md section 2.1 lists. -/
def Obligations.WordsOfTheSpecDecode : Prop :=
  decode 0x01300120#32 = .ok (.add 3 1 2) ∧ decode 0x04400200#32 = .ok (.conj 4 2) ∧ decode 0x05000200#32 = .ok (.norm 2)
  ∧ decode 0x06500002#32 = .ok (.ldc 5 .i) ∧ decode 0x10000610#32 = .ok (.eq 6 1) ∧ decode 0x11000200#32 = .ok (.iszero 2)
  ∧ decode 0x13000930#32 = .ok (.isassoc 9 3) ∧ decode 0x20340120#32 = .ok (.div 3 4 1 2)
  ∧ decode 0x21900120#32 = .ok (.gcd 9 1 2) ∧ decode 0x22345120#32 = .ok (.xgcd 3 4 5 1 2)
  ∧ decode 0x00000000#32 = .error .undefinedOpcode ∧ decode 0x01010000#32 = .error .unusedFieldNonzero
  ∧ decode 0x06500003#32 = .error .badSelector ∧ decode 0x20110000#32 = .error .equalDivDestinations
  ∧ decode 0x22334120#32 = .error .equalXgcdDestinations

/-! ### Steps: the slot, the hold, the port, reset -/

/-- A step runs the decoded command: when the slot holds a word that decodes to `i`, no reset is asserted and no STATUS read is
served first, the step is `exec i` (R41, R106). Which of a STATUS read and the command comes first is the model's choice, log entry 3; how
a word comes to the slot, log entry 1. -/
def Obligations.StepRunsTheCommandInTheSlot : Prop :=
  ∀ (s : State) (u : Word) (i : Instr), s.pending = some u → decode u = .ok i → s.resetNext = false →
    s.readsWhileBusy = false → step s = exec i s

/-- While a command executes (R40): a well-formed STATUS read that the command outlasts is performed at once and answers with
BUSY = 1, and nothing but the port changes; every other access, of any size at any offset, is held: the step is the command's,
and the access still waits at the head of the port after it, with the block no longer busy. That the STATUS read comes first
while `busyFor` is positive is the model's rendering of LATENCY (log entry 3). -/
def Obligations.BusyHoldsAllButStatusReads : Prop :=
  ∀ (s : State) (u : Word), s.pending = some u →
    (∀ rest, s.port = .read 8#8 4 :: rest → 0 < s.busyFor → s.busy = true →
      ∃ v : Word, v[0] = true ∧ step s = .next { s with port := rest, rdata := v, busyFor := s.busyFor - 1 })
    ∧ (∀ i off size rest, decode u = .ok i → s.port = .read off size :: rest → ¬ (off = 8#8 ∧ size = 4) →
      ∃ t, exec i s = .next t ∧ step s = .next t ∧ t.port = .read off size :: rest ∧ t.pending = none ∧ t.busy = false)
    ∧ ∀ i off size v rest, decode u = .ok i → s.port = .write off size v :: rest →
      ∃ t, exec i s = .next t ∧ step s = .next t ∧ t.port = .write off size v :: rest ∧ t.pending = none ∧ t.busy = false

/-- R41, R42, R45: writing a command's word to CMD and letting the next step complete it is executing the command on the registers as
they stood at the write, with CMDLAST updated; only the model's own count `seq` tells the two apart (log entries 3, 15). -/
def Obligations.CommandWrittenIsCommandExecuted : Prop :=
  ∀ (s : State) (i : Instr) (rest : List PortInput), i.wellFormed = true → s.pending = none → s.fault = false →
    s.port = .write 4#8 4 (encode i) :: rest → State.resetNext { s with port := rest } = false →
    State.statusReadNext { s with port := rest } = false →
    ∃ t w, exec i { s with port := rest, cmdlast := encode i } = .next w ∧ Sys2Proof.core.run 2 s = .next t
      ∧ t = { w with seq := t.seq }

/-- R41: the three outcomes of a well-formed CMD write. The latency an accepted command gets (`busyFor`, `seq`) is left open. -/
def Obligations.CommandWriteFollowsR41 : Prop :=
  ∀ (s : State) (u : Word) (rest : List PortInput), s.pending = none → s.port = .write 4#8 4 u :: rest →
    (s.fault = true → step s = .next { s with port := rest, cmdlast := u })
    ∧ (s.fault = false → isLegal u = false → step s = .next { s with
        port := rest, cmdlast := u, fault := true, fcode := 1#4, finfo := u, pending := none, busy := false, busyFor := 0 })
    ∧ (s.fault = false → isLegal u = true → ∃ n m, step s = .next { s with
        port := rest, cmdlast := u, pending := some u, busy := true, busyFor := n, seq := m })

/-- R120: while FAULT = 1 a CMD write updates CMDLAST and does nothing else, whatever the word, legal or not; reads of every
register and writes of the Gaussian registers and of STATUS keep working. -/
def Obligations.FaultHaltIgnoresCommands : Prop :=
  ∀ (s : State) (rest : List PortInput), s.pending = none → s.fault = true →
    (∀ u, s.port = .write 4#8 4 u :: rest → step s = .next { s with port := rest, cmdlast := u })
    ∧ (∀ off : Offset, off.toNat % 4 = 0 → s.port = .read off 4 :: rest →
      step s = .next { s with port := rest, rdata := s.readWord off })
    ∧ (∀ (k : Reg) (u : Word), s.port = .write (BitVec.ofNat 8 (0x40 + 8 * k.val)) 4 u :: rest →
      step s = .next { s with port := rest, g := s.g.set k ⟨u, (s.g[k]).im⟩ })
    ∧ (∀ (k : Reg) (u : Word), s.port = .write (BitVec.ofNat 8 (0x44 + 8 * k.val)) 4 u :: rest →
      step s = .next { s with port := rest, g := s.g.set k ⟨(s.g[k]).re, u⟩ })
    ∧ ∀ u : Word, s.port = .write 8#8 4 u :: rest →
      step s = .next { s with
        port := rest
        wrap := s.wrap && !u[2]
        fault := !u[3]
        fcode := if u[3] then 0#4 else s.fcode
        finfo := if u[3] then 0#32 else s.finfo }

/-- R39: what a well-formed read returns at every offset of the window; no register changes (R38). -/
def Obligations.WindowReadsFollowR39 : Prop :=
  ∀ (s : State) (off : Offset) (rest : List PortInput), s.pending = none → off.toNat % 4 = 0 →
    s.port = .read off 4 :: rest → ∃ v : Word, step s = .next { s with port := rest, rdata := v }
      ∧ (off = 0x00#8 → v = s.id) ∧ (off = 0x04#8 → v = s.cmdlast)
      ∧ (off = 0x08#8 → v.toNat = s.busy.toNat + 2 * s.pred.toNat + 4 * s.wrap.toNat + 8 * s.fault.toNat + 16 * s.fcode.toNat)
      ∧ (off = 0x0C#8 → v = s.finfo)
      ∧ (off = 0x10#8 → v.toNat = s.norm.toNat % 2 ^ 32) ∧ (off = 0x14#8 → v.toNat = s.norm.toNat / 2 ^ 32)
      ∧ (∀ k : Reg, off.toNat = 0x40 + 8 * k.val → v = (s.g[k]).re ∧ v.toInt = (s.readG k).re)
      ∧ (∀ k : Reg, off.toNat = 0x44 + 8 * k.val → v = (s.g[k]).im ∧ v.toInt = (s.readG k).im)
      ∧ (0x18 ≤ off.toNat ∧ off.toNat ≤ 0x3C ∨ 0xC0 ≤ off.toNat → v = 0#32)

/-- R27: a write to G_RE[k] or G_IM[k] sets that component to `wrap32(u)` and leaves the other; a read returns it; no STATUS bit
changes. -/
def Obligations.GaussianRegisterWritesFollowR27 : Prop :=
  ∀ (s : State) (k : Reg) (u : Word) (rest : List PortInput), s.pending = none →
    (s.port = .write (BitVec.ofNat 8 (0x40 + 8 * k.val)) 4 u :: rest →
      ∃ t, step s = .next t ∧ t = { s with port := rest, g := s.g.set k ⟨u, (s.g[k]).im⟩ }
        ∧ t.readG k = ⟨((u.toNat : Int) + 2 ^ 31) % 2 ^ 32 - 2 ^ 31, (s.readG k).im⟩
        ∧ (∀ j, j ≠ k → t.readG j = s.readG j) ∧ t.readWord (BitVec.ofNat 8 (0x40 + 8 * k.val)) = u)
    ∧ (s.port = .write (BitVec.ofNat 8 (0x44 + 8 * k.val)) 4 u :: rest →
      ∃ t, step s = .next t ∧ t = { s with port := rest, g := s.g.set k ⟨(s.g[k]).re, u⟩ }
        ∧ t.readG k = ⟨(s.readG k).re, ((u.toNat : Int) + 2 ^ 31) % 2 ^ 32 - 2 ^ 31⟩
        ∧ (∀ j, j ≠ k → t.readG j = s.readG j) ∧ t.readWord (BitVec.ofNat 8 (0x44 + 8 * k.val)) = u)
    ∧ ((s.readWord (BitVec.ofNat 8 (0x40 + 8 * k.val))).toInt = (s.readG k).re
      ∧ (s.readWord (BitVec.ofNat 8 (0x44 + 8 * k.val))).toInt = (s.readG k).im)

/-- R19: the bits of STATUS as they read, and what a write of STATUS does. -/
def Obligations.StatusRegisterFollowsR19 : Prop :=
  (∀ s : State, s.statusWord.getLsbD 0 = s.busy ∧ s.statusWord.getLsbD 1 = s.pred ∧ s.statusWord.getLsbD 2 = s.wrap
    ∧ s.statusWord.getLsbD 3 = s.fault ∧ s.statusWord.extractLsb' 4 4 = s.fcode ∧ s.statusWord.extractLsb' 8 24 = 0#24
    ∧ s.readWord 8#8 = s.statusWord)
  ∧ (State.reset.statusWord = 0#32)
  ∧ ∀ (s : State) (u : Word) (rest : List PortInput), s.pending = none → s.port = .write 8#8 4 u :: rest →
    step s = .next { s with
      port := rest
      wrap := if u.getLsbD 2 then false else s.wrap
      fault := if u.getLsbD 3 then false else s.fault
      fcode := if u.getLsbD 3 then 0#4 else s.fcode
      finfo := if u.getLsbD 3 then 0#32 else s.finfo }

/-- R28: writes to ID, FINFO, NORM_LO, NORM_HI and reserved offsets are ignored with no fault; reserved offsets read 0. -/
def Obligations.OtherOffsetsFollowR28 : Prop :=
  ∀ (s : State) (off : Offset) (u : Word) (rest : List PortInput), s.pending = none → off.toNat % 4 = 0 →
    (s.port = .write off 4 u :: rest →
      off = 0x00#8 ∨ off = 0x0C#8 ∨ off = 0x10#8 ∨ off = 0x14#8 ∨ (0x18 ≤ off.toNat ∧ off.toNat < 0x40) ∨ 0xC0 ≤ off.toNat →
      step s = .next { s with port := rest })
    ∧ (s.port = .read off 4 :: rest → (0x18 ≤ off.toNat ∧ off.toNat < 0x40) ∨ 0xC0 ≤ off.toNat →
      step s = .next { s with port := rest, rdata := 0#32 })

/-- R34: an access of another size or at an offset that is no multiple of 4 changes nothing but the fault record: a write is
ignored, a read returns 0, and ACCESS is raised whether or not a fault is recorded already; the first record is kept. -/
def Obligations.MalformedAccessesFollowR34 : Prop :=
  ∀ (s : State) (off : Offset) (size : Nat) (rest : List PortInput), s.pending = none → ¬ (size = 4 ∧ off.toNat % 4 = 0) →
    (s.port = .read off size :: rest → step s = .next { s with
      port := rest, rdata := 0#32, fault := true
      fcode := if s.fault then s.fcode else 4#4
      finfo := if s.fault then s.finfo else BitVec.ofNat 32 off.toNat
      pending := none, busy := false, busyFor := 0 })
    ∧ ∀ u, s.port = .write off size u :: rest → step s = .next { s with
      port := rest, fault := true
      fcode := if s.fault then s.fcode else 4#4
      finfo := if s.fault then s.finfo else BitVec.ofNat 32 off.toNat
      pending := none, busy := false, busyFor := 0 }

/-- R22: ID reads `0x4749_0001` at every time (in every state with the invariant, so in every state a run from reset reaches),
and writes to it are ignored. -/
def Obligations.IdReadsTheConstant : Prop :=
  ∀ (s : State) (rest : List PortInput), s.Inv → s.pending = none →
    (s.port = .read 0x00#8 4 :: rest → step s = .next { s with port := rest, rdata := 0x47490001#32 })
    ∧ ∀ u, s.port = .write 0x00#8 4 u :: rest → step s = .next { s with port := rest }

/-- R133: a reset asserted, while a command executes or not, gives the state of R132; of an executing command no result is
written. That `rdata` and `seq` stay is the model's choice, log entries 3 and 6. -/
def Obligations.ResetAbandonsTheCommand : Prop :=
  ∀ (s : State) (rest : List PortInput), s.port = .reset :: rest →
    step s = .next { State.reset with port := rest, rdata := s.rdata, seq := s.seq }

/-- R130: with an empty slot and no access the block is idle and loses no state. -/
def Obligations.IdleBlockLosesNothing : Prop :=
  ∀ s : State, s.pending = none → s.port = [] → step s = .next s

/-- A host byte address in the window reaches the offset `A - GIU_BASE`, and is served last of the accesses presented; an address
outside is not the block's; the base is 256-byte aligned (R31, R32, R42). The form of the base and of the port is the model's choice, log
entries 4 and 5. -/
def Obligations.HostAddressesReachTheirOffsets : Prop :=
  Config.giuBase % 256 = 0
  ∧ (∀ (s : State) (off : Offset) (n : Nat) (v : Word),
      s.memRead (Config.giuBase + off.toNat) n = some { s with port := s.port ++ [.read off n] }
      ∧ s.memWrite (Config.giuBase + off.toNat) n v = some { s with port := s.port ++ [.write off n v] })
  ∧ ∀ (s : State) (a n : Nat) (v : Word), a < Config.giuBase ∨ Config.giuBase + 0x100 ≤ a →
      s.memRead a n = none ∧ s.memWrite a n v = none

/-- R35: the bytes of the window are the words' bytes, least significant at the lowest offset (the view itself: log
entry 16). -/
def Obligations.WindowBytesAreLittleEndian : Prop :=
  ∀ (s : State) (off : Offset), off.toNat % 4 = 0 →
    (s.readWord off).toNat = (s.windowByte off).toNat + 2 ^ 8 * (s.windowByte (off + 1#8)).toNat
      + 2 ^ 16 * (s.windowByte (off + 2#8)).toNat + 2 ^ 24 * (s.windowByte (off + 3#8)).toNat

/-! ### Faults -/

/-- R117: what raising a fault does to every field. -/
def Obligations.RaisingAFaultFollowsR117 : Prop :=
  ∀ (s : State) (c : FaultCode) (w : Word),
    (s.fault = false → s.raise c w = { s with
      fcode := c.bits, finfo := w, fault := true, pending := none, busy := false, busyFor := 0 })
    ∧ (s.fault = true → s.raise c w = { s with pending := none, busy := false, busyFor := 0 })

/-- R118: a command that faults changes the fault record and nothing else; the record is DIVZERO or RANGE with the command
word. -/
def Obligations.CommandFaultsArePrecise : Prop :=
  ∀ (i : Instr) (s t : State), s.fault = false → exec i s = .next t → t.fault = true →
    t = { s with fault := true, fcode := t.fcode, finfo := encode i, pending := none, busy := false, busyFor := 0 }
    ∧ (t.fcode = 2#4 ∨ t.fcode = 3#4)

/-- R112, R109: ADD, SUB, MUL, CONJ, NORM, LDC and the predicates raise no fault; GCD and XGCD never raise DIVZERO; and DIV
raises it exactly when its divisor is zero. -/
def Obligations.CommandsFaultOnlyAsR112Lists : Prop :=
  ∀ (i : Instr) (s t : State), s.fault = false → exec i s = .next t →
    (canFault i = false → t.fault = false ∧ t.fcode = s.fcode ∧ t.finfo = s.finfo)
    ∧ (∀ rd rs1 rs2, i = .gcd rd rs1 rs2 → t.fault = true → t.fcode = 3#4)
    ∧ (∀ rd rd2 rd3 rs1 rs2, i = .xgcd rd rd2 rd3 rs1 rs2 → t.fault = true → t.fcode = 3#4)
    ∧ ∀ rd rd2 rs1 rs2, i = .div rd rd2 rs1 rs2 → t.fault = true → (t.fcode = 2#4 ↔ s.readG rs2 = ⟨0, 0⟩)

/-- The frame of every command (R10): registers that are no destination, NORM for every command but NORM, PRED for every command
but the predicates, WRAP for every command but ADD, SUB, MUL, CONJ, and CMDLAST and ID for every command, stay; the command
completes; and ADD, SUB, MUL, CONJ never clear WRAP. -/
def Obligations.EveryCommandKeepsItsFrame : Prop :=
  ∀ (i : Instr) (s t : State), exec i s = .next t →
    (∀ k, k ∉ destinations i → t.g[k] = s.g[k])
    ∧ (i.mnemonic ≠ "NORM" → t.norm = s.norm) ∧ (writesPred i = false → t.pred = s.pred)
    ∧ (canWrap i = false → t.wrap = s.wrap) ∧ (s.wrap = true → t.wrap = true)
    ∧ t.cmdlast = s.cmdlast ∧ t.id = s.id ∧ t.pending = none ∧ t.busy = false
    ∧ t.port = s.port ∧ t.rdata = s.rdata ∧ t.seq = s.seq ∧ t.busyFor = 0

/-- R29, over whole steps: PRED is written only by the four predicates, WRAP is set only by ADD, SUB, MUL, CONJ and cleared only by
a W1C write of STATUS, FAULT is cleared, and FCODE changed from a recorded one, only by a W1C write of STATUS; FAULT and FCODE are set
only by the fault mechanism (R117), which is only what R112 lists: a CMD write of a word that is not legal (code 1), an access that is
not well-formed (code 4), or a DIV, GCD or XGCD that completes (code 2 or 3); and BUSY follows the slot. Each but for a reset (log
entry 10). -/
def Obligations.StatusBitsHaveOnlyTheWritersOfR29 : Prop :=
  ∀ s t : State, s.Inv → step s = .next t → s.resetNext = false →
    (t.pred ≠ s.pred → ∃ u i, s.pending = some u ∧ decode u = .ok i ∧ writesPred i = true)
    ∧ (s.wrap = false → t.wrap = true → ∃ u i, s.pending = some u ∧ decode u = .ok i ∧ canWrap i = true)
    ∧ (s.wrap = true → t.wrap = false → ∃ u rest, s.port = .write 8#8 4 u :: rest ∧ s.pending = none ∧ u[2] = true)
    ∧ (s.fault = true → t.fault = false ∨ t.fcode ≠ s.fcode →
      ∃ u rest, s.port = .write 8#8 4 u :: rest ∧ s.pending = none ∧ u[3] = true)
    ∧ (s.fault = false → t.fault = true ∨ t.fcode ≠ s.fcode →
      (∃ u rest, s.pending = none ∧ s.port = .write 4#8 4 u :: rest ∧ isLegal u = false ∧ t.fcode = 1#4)
      ∨ (∃ off size rest, s.pending = none ∧ ¬ (size = 4 ∧ off.toNat % 4 = 0) ∧ t.fcode = 4#4
        ∧ (s.port = .read off size :: rest ∨ ∃ v, s.port = .write off size v :: rest))
      ∨ ∃ u i, s.pending = some u ∧ decode u = .ok i ∧ canFault i = true ∧ (t.fcode = 2#4 ∨ t.fcode = 3#4))
    ∧ t.busy = t.pending.isSome

/-- R15: only the NORM command (or a reset) changes NORM; what it leaves there is at most `2^63`. That a word in the slot that is not
legal, which R41 never allows, leaves NORM alone is the model's choice, log entry 9. -/
def Obligations.OnlyTheNormCommandWritesNorm : Prop :=
  ∀ s t : State, step s = .next t → s.resetNext = false → t.norm ≠ s.norm →
    (∃ u rs1, s.pending = some u ∧ decode u = .ok (.norm rs1)) ∧ t.norm.toNat ≤ 2 ^ 63

/-! ### Ring operations -/

/-- R6: `wrap32(v)` is the unique representable value congruent to `v` modulo `2^32`. -/
def Obligations.WrappingIsTheBalancedResidue : Prop :=
  ∀ v : Int, (wrap32 v).toInt = (v + 2 ^ 31) % 2 ^ 32 - 2 ^ 31
    ∧ fits32 (wrap32 v).toInt ∧ ∀ w : Int, fits32 w → w % 2 ^ 32 = v % 2 ^ 32 → w = (wrap32 v).toInt

/-- R72: ADD, its encoding and its effect. -/
def Obligations.AddWritesTheWrappedSum : Prop :=
  ∀ rd rs1 rs2 : Reg,
    decode (wordOf ⟨0x01#8, regBits rd, 0#4, 0#4, regBits rs1, regBits rs2, 0#4⟩) = .ok (.add rd rs1 rs2)
    ∧ ∀ s : State, exec (.add rd rs1 rs2) s = .next { s with
      g := s.g.set rd ⟨BitVec.ofInt 32 ((s.readG rs1).re + (s.readG rs2).re), BitVec.ofInt 32 ((s.readG rs1).im + (s.readG rs2).im)⟩
      wrap := s.wrap || decide (¬ (fits32 ((s.readG rs1).re + (s.readG rs2).re) ∧ fits32 ((s.readG rs1).im + (s.readG rs2).im)))
      pending := none, busy := false, busyFor := 0 }

/-- R73: SUB, its encoding and its effect. -/
def Obligations.SubWritesTheWrappedDifference : Prop :=
  ∀ rd rs1 rs2 : Reg,
    decode (wordOf ⟨0x02#8, regBits rd, 0#4, 0#4, regBits rs1, regBits rs2, 0#4⟩) = .ok (.sub rd rs1 rs2)
    ∧ ∀ s : State, exec (.sub rd rs1 rs2) s = .next { s with
      g := s.g.set rd ⟨BitVec.ofInt 32 ((s.readG rs1).re - (s.readG rs2).re), BitVec.ofInt 32 ((s.readG rs1).im - (s.readG rs2).im)⟩
      wrap := s.wrap || decide (¬ (fits32 ((s.readG rs1).re - (s.readG rs2).re) ∧ fits32 ((s.readG rs1).im - (s.readG rs2).im)))
      pending := none, busy := false, busyFor := 0 }

/-- R74: MUL, its encoding and its effect. -/
def Obligations.MulWritesTheWrappedProduct : Prop :=
  ∀ rd rs1 rs2 : Reg,
    decode (wordOf ⟨0x03#8, regBits rd, 0#4, 0#4, regBits rs1, regBits rs2, 0#4⟩) = .ok (.mul rd rs1 rs2)
    ∧ ∀ (s : State) (a b c d : Int), s.readG rs1 = ⟨a, b⟩ → s.readG rs2 = ⟨c, d⟩ →
      exec (.mul rd rs1 rs2) s = .next { s with
        g := s.g.set rd ⟨BitVec.ofInt 32 (a * c - b * d), BitVec.ofInt 32 (a * d + b * c)⟩
        wrap := s.wrap || decide (¬ (fits32 (a * c - b * d) ∧ fits32 (a * d + b * c)))
        pending := none, busy := false, busyFor := 0 }

/-- R75: CONJ, its encoding and its effect; WRAP is set exactly when the imaginary part is `-2^31`. -/
def Obligations.ConjNegatesTheImaginaryPart : Prop :=
  ∀ rd rs1 : Reg,
    decode (wordOf ⟨0x04#8, regBits rd, 0#4, 0#4, regBits rs1, 0#4, 0#4⟩) = .ok (.conj rd rs1)
    ∧ ∀ s : State, exec (.conj rd rs1) s = .next { s with
      g := s.g.set rd ⟨BitVec.ofInt 32 (s.readG rs1).re, BitVec.ofInt 32 (-(s.readG rs1).im)⟩
      wrap := s.wrap || decide ((s.readG rs1).im = -2 ^ 31)
      pending := none, busy := false, busyFor := 0 }

/-- R76: NORM, its encoding and its effect: `a*a + b*b` exactly, in `[0, 2^63]`. -/
def Obligations.NormWritesTheExactNorm : Prop :=
  ∀ rs1 : Reg,
    decode (wordOf ⟨0x05#8, 0#4, 0#4, 0#4, regBits rs1, 0#4, 0#4⟩) = .ok (.norm rs1)
    ∧ ∀ s : State, ∃ n : BitVec 64,
      exec (.norm rs1) s = .next { s with norm := n, pending := none, busy := false, busyFor := 0 }
      ∧ (n.toNat : Int) = (s.readG rs1).re * (s.readG rs1).re + (s.readG rs1).im * (s.readG rs1).im ∧ n.toNat ≤ 2 ^ 63

/-- R77, R55: LDC for each selector, its encoding and its effect; a selector above 2 is ILLEGAL. -/
def Obligations.LdcLoadsTheConstant : Prop :=
  ∀ rd : Reg,
    (∀ s : State,
      exec (.ldc rd .zero) s = .next { s with g := s.g.set rd ⟨0#32, 0#32⟩, pending := none, busy := false, busyFor := 0 }
      ∧ exec (.ldc rd .one) s = .next { s with g := s.g.set rd ⟨1#32, 0#32⟩, pending := none, busy := false, busyFor := 0 }
      ∧ exec (.ldc rd .i) s = .next { s with g := s.g.set rd ⟨0#32, 1#32⟩, pending := none, busy := false, busyFor := 0 })
    ∧ decode (wordOf ⟨0x06#8, regBits rd, 0#4, 0#4, 0#4, 0#4, 0#4⟩) = .ok (.ldc rd .zero)
    ∧ decode (wordOf ⟨0x06#8, regBits rd, 0#4, 0#4, 0#4, 0#4, 1#4⟩) = .ok (.ldc rd .one)
    ∧ decode (wordOf ⟨0x06#8, regBits rd, 0#4, 0#4, 0#4, 0#4, 2#4⟩) = .ok (.ldc rd .i)
    ∧ ∀ k : BitVec 4, 3 ≤ k.toNat → isLegal (wordOf ⟨0x06#8, regBits rd, 0#4, 0#4, 0#4, 0#4, k⟩) = false

/-- R66, R68: what ADD, SUB, MUL and CONJ write is 32-bit arithmetic modulo `2^32` on the stored components, whatever the width of
an intermediate. -/
def Obligations.RingResultsAreArithmeticModulo2To32 : Prop :=
  ∀ (s : State) (rd rs1 rs2 : Reg), ∃ t1 t2 t3 t4,
    exec (.add rd rs1 rs2) s = .next t1 ∧ exec (.sub rd rs1 rs2) s = .next t2 ∧ exec (.mul rd rs1 rs2) s = .next t3
    ∧ exec (.conj rd rs1) s = .next t4
    ∧ t1.g[rd] = ⟨(s.g[rs1]).re + (s.g[rs2]).re, (s.g[rs1]).im + (s.g[rs2]).im⟩
    ∧ t2.g[rd] = ⟨(s.g[rs1]).re - (s.g[rs2]).re, (s.g[rs1]).im - (s.g[rs2]).im⟩
    ∧ t3.g[rd] = ⟨(s.g[rs1]).re * (s.g[rs2]).re - (s.g[rs1]).im * (s.g[rs2]).im,
        (s.g[rs1]).re * (s.g[rs2]).im + (s.g[rs1]).im * (s.g[rs2]).re⟩
    ∧ t4.g[rd] = ⟨(s.g[rs1]).re, -(s.g[rs1]).im⟩

/-- R78: the ring laws, for the values ADD, SUB, MUL and CONJ write (`wrapped`), for all registers' contents, wrapping or not. -/
def Obligations.WrittenValuesSatisfyTheRingLaws : Prop :=
  ∀ x y z : GReg,
    let add := fun a b : GReg => (a.val.add b.val).wrapped
    let sub := fun a b : GReg => (a.val.sub b.val).wrapped
    let mul := fun a b : GReg => (a.val.mul b.val).wrapped
    let conj := fun a : GReg => a.val.conj.wrapped
    let zero := Gauss.zero.wrapped
    let one := Gauss.one.wrapped
    add x y = add y x ∧ add (add x y) z = add x (add y z) ∧ mul x y = mul y x ∧ mul (mul x y) z = mul x (mul y z)
    ∧ add x zero = x ∧ mul x one = x ∧ mul x (add y z) = add (mul x y) (mul x z) ∧ mul (add x y) z = add (mul x z) (mul y z)
    ∧ sub x y = add x (sub zero y) ∧ conj (conj x) = x ∧ conj (add x y) = add (conj x) (conj y)
    ∧ conj (mul x y) = mul (conj x) (conj y)

/-- R79: the norm is not negative, zero exactly at ZERO, and multiplicative where MUL does not wrap, seen on the block: NORM of the
register MUL wrote is the product of the norms. -/
def Obligations.NormLawsHoldWhereMulDoesNotWrap : Prop :=
  (∀ x : GReg, 0 ≤ x.val.norm ∧ (x.val.norm = 0 ↔ x.val = ⟨0, 0⟩))
  ∧ ∀ (s : State) (rd rs1 rs2 : Reg), s.wrap = false → ∀ t, exec (.mul rd rs1 rs2) s = .next t → t.wrap = false →
    ∃ w, exec (.norm rd) t = .next w ∧ (w.norm.toNat : Int) = (s.readG rs1).norm * (s.readG rs2).norm

/-! ### Predicates -/

/-- R80: EQ, its encoding and its effect. -/
def Obligations.EqTestsEquality : Prop :=
  ∀ rs1 rs2 : Reg,
    decode (wordOf ⟨0x10#8, 0#4, 0#4, 0#4, regBits rs1, regBits rs2, 0#4⟩) = .ok (.eq rs1 rs2)
    ∧ ∀ s : State, exec (.eq rs1 rs2) s = .next { s with
      pred := decide (s.g[rs1] = s.g[rs2]), pending := none, busy := false, busyFor := 0 }

/-- R81: ISZERO, its encoding and its effect. -/
def Obligations.IszeroTestsForZero : Prop :=
  ∀ rs1 : Reg,
    decode (wordOf ⟨0x11#8, 0#4, 0#4, 0#4, regBits rs1, 0#4, 0#4⟩) = .ok (.iszero rs1)
    ∧ ∀ s : State, exec (.iszero rs1) s = .next { s with
      pred := decide (s.g[rs1] = ⟨0#32, 0#32⟩), pending := none, busy := false, busyFor := 0 }

/-- R82, R85: ISUNIT, its encoding and its effect: true exactly for the four units, which are the values of norm 1. -/
def Obligations.IsunitTestsForTheFourUnits : Prop :=
  ∀ rs1 : Reg,
    decode (wordOf ⟨0x12#8, 0#4, 0#4, 0#4, regBits rs1, 0#4, 0#4⟩) = .ok (.isunit rs1)
    ∧ ∀ s : State,
      exec (.isunit rs1) s = .next { s with
        pred := decide (s.readG rs1 = ⟨1, 0⟩ ∨ s.readG rs1 = ⟨-1, 0⟩ ∨ s.readG rs1 = ⟨0, 1⟩ ∨ s.readG rs1 = ⟨0, -1⟩)
        pending := none, busy := false, busyFor := 0 }
      ∧ exec (.isunit rs1) s = .next { s with
        pred := decide ((s.readG rs1).re * (s.readG rs1).re + (s.readG rs1).im * (s.readG rs1).im = 1)
        pending := none, busy := false, busyFor := 0 }

/-- R83: ISASSOC, its encoding and its effect: `x` is `y` times one of the four units, the products exact. -/
def Obligations.IsassocTestsForAssociates : Prop :=
  ∀ rs1 rs2 : Reg,
    decode (wordOf ⟨0x13#8, 0#4, 0#4, 0#4, regBits rs1, regBits rs2, 0#4⟩) = .ok (.isassoc rs1 rs2)
    ∧ ∀ s : State, exec (.isassoc rs1 rs2) s = .next { s with
      pred := decide (s.readG rs1 = (s.readG rs2).mul ⟨1, 0⟩ ∨ s.readG rs1 = (s.readG rs2).mul ⟨-1, 0⟩
        ∨ s.readG rs1 = (s.readG rs2).mul ⟨0, 1⟩ ∨ s.readG rs1 = (s.readG rs2).mul ⟨0, -1⟩)
      pending := none, busy := false, busyFor := 0 }

/-- R84: ISASSOC's relation is reflexive, symmetric and transitive, and zero is associate only to zero. -/
def Obligations.AssociatesFormAnEquivalence : Prop :=
  ∀ x y z : GReg,
    predIsAssoc x.val x.val = true
    ∧ (predIsAssoc x.val y.val = true → predIsAssoc y.val x.val = true)
    ∧ (predIsAssoc x.val y.val = true → predIsAssoc y.val z.val = true → predIsAssoc x.val z.val = true)
    ∧ (predIsAssoc x.val Gauss.zero = true ↔ x.val = Gauss.zero)
    ∧ (predIsAssoc Gauss.zero y.val = true ↔ y.val = Gauss.zero)

/-! ### Division -/

/-- R89, R90: `roundq(p, m)` is a nearest integer to `p / m`, the only one where `p / m` is not exactly halfway; at a tie
HALF_AWAY_FROM_ZERO takes the one further from zero and HALF_TO_EVEN the even one. -/
def Obligations.RoundingIsToNearestWithTheTieRule : Prop :=
  ∀ (t : TieRule) (p m : Int), 1 ≤ m →
    (-m ≤ 2 * (p - roundq t p m * m) ∧ 2 * (p - roundq t p m * m) ≤ m)
    ∧ (∀ q : Int, -m < 2 * (p - q * m) → 2 * (p - q * m) < m → roundq t p m = q)
    ∧ (∀ f : Int, 2 * (p - f * m) = m →
      roundq .halfAwayFromZero p m = (if 0 < p then f + 1 else f)
      ∧ roundq .halfToEven p m = (if f % 2 = 0 then f else f + 1))

/-- R88, R91: the division function is the nearest Gaussian integer to `n * conj(d) / N(d)`, coordinate by coordinate, and the exact
remainder. -/
def Obligations.DivisionFollowsR91 : Prop :=
  ∀ (t : TieRule) (n d : Gauss), d ≠ ⟨0, 0⟩ →
    1 ≤ d.re * d.re + d.im * d.im
    ∧ quotG t n d = ⟨roundq t (n.mul d.conj).re (d.re * d.re + d.im * d.im), roundq t (n.mul d.conj).im (d.re * d.re + d.im * d.im)⟩
    ∧ n = (d.mul (quotG t n d)).add (remG t n d)

/-- R93 (and R87's contract): the remainder's norm is at most half the divisor's, for every dividend, every divisor but zero and
either tie rule. -/
def Obligations.RemainderNormIsAtMostHalf : Prop :=
  ∀ (t : TieRule) (n d : Gauss), d ≠ ⟨0, 0⟩ →
    n = (d.mul (quotG t n d)).add (remG t n d) ∧ 2 * (remG t n d).norm ≤ d.norm ∧ (remG t n d).norm ≤ d.norm
      ∧ (remG t n d).norm < d.norm

/-- R92, R97, R119: DIV, its encoding and its effect: DIVZERO for a zero divisor, RANGE for a result that does not fit, otherwise the
quotient and the remainder, exactly. -/
def Obligations.DivFollowsR92 : Prop :=
  ∀ rd rd2 rs1 rs2 : Reg, rd ≠ rd2 →
    decode (wordOf ⟨0x20#8, regBits rd, regBits rd2, 0#4, regBits rs1, regBits rs2, 0#4⟩) = .ok (.div rd rd2 rs1 rs2)
    ∧ ∀ (s : State) (n d q r : Gauss), s.readG rs1 = n → s.readG rs2 = d → quotG Config.tieRule n d = q →
        remG Config.tieRule n d = r →
      (d = ⟨0, 0⟩ → exec (.div rd rd2 rs1 rs2) s
        = .next (s.raise .divzero (wordOf ⟨0x20#8, regBits rd, regBits rd2, 0#4, regBits rs1, regBits rs2, 0#4⟩)))
      ∧ (d ≠ ⟨0, 0⟩ → ¬ (q.fits ∧ r.fits) → exec (.div rd rd2 rs1 rs2) s
        = .next (s.raise .range (wordOf ⟨0x20#8, regBits rd, regBits rd2, 0#4, regBits rs1, regBits rs2, 0#4⟩)))
      ∧ (d ≠ ⟨0, 0⟩ → q.fits → r.fits → ∃ t, exec (.div rd rd2 rs1 rs2) s = .next t
        ∧ t = { s with g := t.g, pending := none, busy := false, busyFor := 0 }
        ∧ t.readG rd = q ∧ t.readG rd2 = r ∧ ∀ k, k ≠ rd → k ≠ rd2 → t.g[k] = s.g[k])

/-- R94: whenever DIV writes its results, the old dividend is the old divisor times the new quotient plus the new remainder, exactly,
and the remainder's norm is at most half the divisor's. -/
def Obligations.DivWritesAnExactIdentity : Prop :=
  ∀ (s t : State) (rd rd2 rs1 rs2 : Reg), rd ≠ rd2 → s.fault = false → exec (.div rd rd2 rs1 rs2) s = .next t →
    t.fault = false →
    s.readG rs1 = ((s.readG rs2).mul (t.readG rd)).add (t.readG rd2) ∧ 2 * (t.readG rd2).norm ≤ (s.readG rs2).norm

/-- R98: the quotient depends on the ratio `n/d` only; multiplying dividend and divisor by a unit leaves it and multiplies the
remainder; a multiple of the divisor divides exactly. -/
def Obligations.QuotientDependsOnTheRatioOnly : Prop :=
  ∀ (t : TieRule) (n d : Gauss), d ≠ ⟨0, 0⟩ →
    (∀ n' d' : Gauss, d' ≠ ⟨0, 0⟩ → n.mul d' = n'.mul d → quotG t n' d' = quotG t n d)
    ∧ (∀ u : Gauss, u.norm = 1 →
      quotG t (n.mul u) (d.mul u) = quotG t n d ∧ remG t (n.mul u) (d.mul u) = (remG t n d).mul u)
    ∧ ∀ k : Gauss, quotG t (d.mul k) d = k ∧ remG t (d.mul k) d = ⟨0, 0⟩

/-- R96 (1): a remainder of representable values is out of range only for the divisor `(-2^31, -2^31)` at a double tie, under
HALF_AWAY_FROM_ZERO; never under HALF_TO_EVEN. -/
def Obligations.RemainderOutOfRangeOnlyAtOneDivisor : Prop :=
  ∀ n d : Gauss, n.fits → d.fits → d ≠ ⟨0, 0⟩ →
    (remG .halfToEven n d).fits
    ∧ (¬ (remG .halfAwayFromZero n d).fits ↔
      d = ⟨-2 ^ 31, -2 ^ 31⟩ ∧ (n = ⟨-2 ^ 31, 0⟩ ∨ n = ⟨0, -2 ^ 31⟩))

/-! ### GCD and XGCD -/

/-- R108: from representable operands both loops end, after at most 64 iterations. -/
def Obligations.LoopsEndWithin64Iterations : Prop :=
  ∀ (t : TieRule) (a b : Gauss), a.fits → b.fits →
    (∃ n ≤ 64, ∃ g, GcdRun t n a b g)
    ∧ ∃ n ≤ 64, ∃ w, XgcdRun t n ⟨a, b, ⟨1, 0⟩, ⟨0, 0⟩, ⟨0, 0⟩, ⟨1, 0⟩⟩ w

/-- R100: GCD, its encoding and its effect, against the spec's while loop (no fuel, no bound): the loop from the operands ends in some
`g`; GCD writes it where it fits and raises RANGE where it does not. -/
def Obligations.GcdRunsTheLoopOfR100 : Prop :=
  ∀ rd rs1 rs2 : Reg,
    decode (wordOf ⟨0x21#8, regBits rd, 0#4, 0#4, regBits rs1, regBits rs2, 0#4⟩) = .ok (.gcd rd rs1 rs2)
    ∧ (∀ s : State, ∃ n g, GcdRun Config.tieRule n (s.readG rs1) (s.readG rs2) g)
    ∧ ∀ (s : State) (n : Nat) (g : Gauss), GcdRun Config.tieRule n (s.readG rs1) (s.readG rs2) g →
      (g.fits → ∃ t, exec (.gcd rd rs1 rs2) s = .next t
        ∧ t = { s with g := t.g, pending := none, busy := false, busyFor := 0 }
        ∧ t.readG rd = g ∧ ∀ k, k ≠ rd → t.g[k] = s.g[k])
      ∧ (¬ g.fits → exec (.gcd rd rs1 rs2) s
        = .next (s.raise .range (wordOf ⟨0x21#8, regBits rd, 0#4, 0#4, regBits rs1, regBits rs2, 0#4⟩)))

/-- R102: XGCD, its encoding and its effect, against the spec's while loop: the loop from `(a, b)` with the cofactor slots
`(ONE, ZERO)` and `(ZERO, ONE)` ends in some slots; XGCD writes `old_r`, `old_s`, `old_t` where all three fit and raises RANGE
otherwise. -/
def Obligations.XgcdRunsTheLoopOfR102 : Prop :=
  ∀ rd rd2 rd3 rs1 rs2 : Reg, rd ≠ rd2 → rd ≠ rd3 → rd2 ≠ rd3 →
    decode (wordOf ⟨0x22#8, regBits rd, regBits rd2, regBits rd3, regBits rs1, regBits rs2, 0#4⟩) = .ok (.xgcd rd rd2 rd3 rs1 rs2)
    ∧ (∀ s : State, ∃ n w, XgcdRun Config.tieRule n ⟨s.readG rs1, s.readG rs2, ⟨1, 0⟩, ⟨0, 0⟩, ⟨0, 0⟩, ⟨1, 0⟩⟩ w)
    ∧ ∀ (s : State) (n : Nat) (w : XSlots),
      XgcdRun Config.tieRule n ⟨s.readG rs1, s.readG rs2, ⟨1, 0⟩, ⟨0, 0⟩, ⟨0, 0⟩, ⟨1, 0⟩⟩ w →
      (w.oldR.fits → w.oldS.fits → w.oldT.fits → ∃ t, exec (.xgcd rd rd2 rd3 rs1 rs2) s = .next t
        ∧ t = { s with g := t.g, pending := none, busy := false, busyFor := 0 }
        ∧ t.readG rd = w.oldR ∧ t.readG rd2 = w.oldS ∧ t.readG rd3 = w.oldT
        ∧ ∀ k, k ≠ rd → k ≠ rd2 → k ≠ rd3 → t.g[k] = s.g[k])
      ∧ (¬ (w.oldR.fits ∧ w.oldS.fits ∧ w.oldT.fits) → exec (.xgcd rd rd2 rd3 rs1 rs2) s
        = .next (s.raise .range (wordOf ⟨0x22#8, regBits rd, regBits rd2, regBits rd3, regBits rs1, regBits rs2, 0#4⟩)))

/-- R101: a GCD that is written divides both operands, every common divisor divides it, it is zero exactly when both are, and it is
a unit when the operands are coprime. -/
def Obligations.GcdIsAGreatestCommonDivisor : Prop :=
  ∀ (s t : State) (rd rs1 rs2 : Reg), s.fault = false → exec (.gcd rd rs1 rs2) s = .next t → t.fault = false →
    (t.readG rd).Divides (s.readG rs1) ∧ (t.readG rd).Divides (s.readG rs2)
    ∧ (∀ c : Gauss, c.Divides (s.readG rs1) → c.Divides (s.readG rs2) → c.Divides (t.readG rd))
    ∧ (t.readG rd = ⟨0, 0⟩ ↔ s.readG rs1 = ⟨0, 0⟩ ∧ s.readG rs2 = ⟨0, 0⟩)
    ∧ ((∀ c : Gauss, c.Divides (s.readG rs1) → c.Divides (s.readG rs2) → c.norm = 1) → predIsUnit (t.readG rd) = true)

/-- R103: the Bézout identities hold at the top of every iteration, and for the values XGCD writes, exactly. -/
def Obligations.BezoutIdentityHolds : Prop :=
  (∀ (t : TieRule) (a b : Gauss) (n : Nat) (v : XSlots), v = (xgcdStep t)^[n] (xgcdInit a b) →
    v.oldR = (v.oldS.mul a).add (v.oldT.mul b) ∧ v.r = (v.s.mul a).add (v.t.mul b))
  ∧ ∀ (s t : State) (rd rd2 rd3 rs1 rs2 : Reg), rd ≠ rd2 → rd ≠ rd3 → rd2 ≠ rd3 → s.fault = false →
    exec (.xgcd rd rd2 rd3 rs1 rs2) s = .next t → t.fault = false →
    t.readG rd = ((t.readG rd2).mul (s.readG rs1)).add ((t.readG rd3).mul (s.readG rs2))

/-- R104: XGCD and GCD of the same operands give the same `g`: the values they write agree, XGCD's `g` is out of range exactly
when GCD raises RANGE, and XGCD can raise RANGE where GCD does not. -/
def Obligations.XgcdAndGcdAgree : Prop :=
  (∀ (s t w : State) (rd rd2 rd3 rd' rs1 rs2 : Reg), rd ≠ rd2 → rd ≠ rd3 → rd2 ≠ rd3 → s.fault = false →
    exec (.xgcd rd rd2 rd3 rs1 rs2) s = .next t → exec (.gcd rd' rs1 rs2) s = .next w →
    (t.fault = false → w.fault = false ∧ t.readG rd = w.readG rd')
    ∧ (w.fault = true ↔ ¬ (xgcdG Config.tieRule (s.readG rs1) (s.readG rs2)).oldR.fits))
  ∧ ∃ s t w : State, s.fault = false ∧ exec (.xgcd 3 4 5 1 2) s = .next t ∧ exec (.gcd 6 1 2) s = .next w
    ∧ t.fault = true ∧ t.fcode = 3#4 ∧ w.fault = false

/-- R107 (its part on GCD): under HALF_TO_EVEN the final `g` of representable operands always fits, so no GCD raises RANGE; under
HALF_AWAY_FROM_ZERO the one of `(-2^31, 0)` and `(-2^31, -2^31)` does not. -/
def Obligations.GcdOutOfRangeOnlyAwayFromZero : Prop :=
  (∀ a b : Gauss, a.fits → b.fits → (gcdG .halfToEven a b).fits)
  ∧ gcdG .halfAwayFromZero ⟨-2 ^ 31, 0⟩ ⟨-2 ^ 31, -2 ^ 31⟩ = ⟨2 ^ 31, 0⟩
  ∧ gcdG .halfToEven ⟨-2 ^ 31, 0⟩ ⟨-2 ^ 31, -2 ^ 31⟩ = ⟨-2 ^ 31, 0⟩
end

