-- ==== Sys2Proof/Laws/State.lean ====
section
/-! SUPPORT. One lemma per field per update of the state: what each named operation leaves in each field. -/

namespace Sys2Proof.Machine

open Sys2Proof

variable (s : State)

@[simp] theorem State.putG_g (k : Reg) (v : Gauss) : (s.putG k v).g = s.g.set k v.wrapped := rfl
@[simp] theorem State.putG_norm (k : Reg) (v : Gauss) : (s.putG k v).norm = s.norm := rfl
@[simp] theorem State.putG_pred (k : Reg) (v : Gauss) : (s.putG k v).pred = s.pred := rfl
@[simp] theorem State.putG_busy (k : Reg) (v : Gauss) : (s.putG k v).busy = s.busy := rfl
@[simp] theorem State.putG_wrap (k : Reg) (v : Gauss) : (s.putG k v).wrap = s.wrap := rfl
@[simp] theorem State.putG_fault (k : Reg) (v : Gauss) : (s.putG k v).fault = s.fault := rfl
@[simp] theorem State.putG_fcode (k : Reg) (v : Gauss) : (s.putG k v).fcode = s.fcode := rfl
@[simp] theorem State.putG_finfo (k : Reg) (v : Gauss) : (s.putG k v).finfo = s.finfo := rfl
@[simp] theorem State.putG_cmdlast (k : Reg) (v : Gauss) : (s.putG k v).cmdlast = s.cmdlast := rfl
@[simp] theorem State.putG_id (k : Reg) (v : Gauss) : (s.putG k v).id = s.id := rfl
@[simp] theorem State.putG_pending (k : Reg) (v : Gauss) : (s.putG k v).pending = s.pending := rfl
@[simp] theorem State.putG_port (k : Reg) (v : Gauss) : (s.putG k v).port = s.port := rfl
@[simp] theorem State.putG_rdata (k : Reg) (v : Gauss) : (s.putG k v).rdata = s.rdata := rfl
@[simp] theorem State.putG_busyFor (k : Reg) (v : Gauss) : (s.putG k v).busyFor = s.busyFor := rfl
@[simp] theorem State.putG_seq (k : Reg) (v : Gauss) : (s.putG k v).seq = s.seq := rfl

@[simp] theorem State.writeG_g (k : Reg) (v : Gauss) : (s.writeG k v).g = s.g.set k v.wrapped := rfl
@[simp] theorem State.writeG_norm (k : Reg) (v : Gauss) : (s.writeG k v).norm = s.norm := rfl
@[simp] theorem State.writeG_pred (k : Reg) (v : Gauss) : (s.writeG k v).pred = s.pred := rfl
@[simp] theorem State.writeG_busy (k : Reg) (v : Gauss) : (s.writeG k v).busy = s.busy := rfl
@[simp] theorem State.writeG_wrap (k : Reg) (v : Gauss) : (s.writeG k v).wrap = wrapFlag s.wrap v := rfl
@[simp] theorem State.writeG_fault (k : Reg) (v : Gauss) : (s.writeG k v).fault = s.fault := rfl
@[simp] theorem State.writeG_fcode (k : Reg) (v : Gauss) : (s.writeG k v).fcode = s.fcode := rfl
@[simp] theorem State.writeG_finfo (k : Reg) (v : Gauss) : (s.writeG k v).finfo = s.finfo := rfl
@[simp] theorem State.writeG_cmdlast (k : Reg) (v : Gauss) : (s.writeG k v).cmdlast = s.cmdlast := rfl
@[simp] theorem State.writeG_id (k : Reg) (v : Gauss) : (s.writeG k v).id = s.id := rfl
@[simp] theorem State.writeG_pending (k : Reg) (v : Gauss) : (s.writeG k v).pending = s.pending := rfl
@[simp] theorem State.writeG_port (k : Reg) (v : Gauss) : (s.writeG k v).port = s.port := rfl
@[simp] theorem State.writeG_rdata (k : Reg) (v : Gauss) : (s.writeG k v).rdata = s.rdata := rfl
@[simp] theorem State.writeG_busyFor (k : Reg) (v : Gauss) : (s.writeG k v).busyFor = s.busyFor := rfl
@[simp] theorem State.writeG_seq (k : Reg) (v : Gauss) : (s.writeG k v).seq = s.seq := rfl

@[simp] theorem State.writeNorm_g (n : Int) : (s.writeNorm n).g = s.g := rfl
@[simp] theorem State.writeNorm_norm (n : Int) : (s.writeNorm n).norm = BitVec.ofInt 64 n := rfl
@[simp] theorem State.writeNorm_pred (n : Int) : (s.writeNorm n).pred = s.pred := rfl
@[simp] theorem State.writeNorm_busy (n : Int) : (s.writeNorm n).busy = s.busy := rfl
@[simp] theorem State.writeNorm_wrap (n : Int) : (s.writeNorm n).wrap = s.wrap := rfl
@[simp] theorem State.writeNorm_fault (n : Int) : (s.writeNorm n).fault = s.fault := rfl
@[simp] theorem State.writeNorm_fcode (n : Int) : (s.writeNorm n).fcode = s.fcode := rfl
@[simp] theorem State.writeNorm_finfo (n : Int) : (s.writeNorm n).finfo = s.finfo := rfl
@[simp] theorem State.writeNorm_cmdlast (n : Int) : (s.writeNorm n).cmdlast = s.cmdlast := rfl
@[simp] theorem State.writeNorm_id (n : Int) : (s.writeNorm n).id = s.id := rfl
@[simp] theorem State.writeNorm_pending (n : Int) : (s.writeNorm n).pending = s.pending := rfl
@[simp] theorem State.writeNorm_port (n : Int) : (s.writeNorm n).port = s.port := rfl
@[simp] theorem State.writeNorm_rdata (n : Int) : (s.writeNorm n).rdata = s.rdata := rfl
@[simp] theorem State.writeNorm_busyFor (n : Int) : (s.writeNorm n).busyFor = s.busyFor := rfl
@[simp] theorem State.writeNorm_seq (n : Int) : (s.writeNorm n).seq = s.seq := rfl

@[simp] theorem State.writePred_g (b : Bool) : (s.writePred b).g = s.g := rfl
@[simp] theorem State.writePred_norm (b : Bool) : (s.writePred b).norm = s.norm := rfl
@[simp] theorem State.writePred_pred (b : Bool) : (s.writePred b).pred = b := rfl
@[simp] theorem State.writePred_busy (b : Bool) : (s.writePred b).busy = s.busy := rfl
@[simp] theorem State.writePred_wrap (b : Bool) : (s.writePred b).wrap = s.wrap := rfl
@[simp] theorem State.writePred_fault (b : Bool) : (s.writePred b).fault = s.fault := rfl
@[simp] theorem State.writePred_fcode (b : Bool) : (s.writePred b).fcode = s.fcode := rfl
@[simp] theorem State.writePred_finfo (b : Bool) : (s.writePred b).finfo = s.finfo := rfl
@[simp] theorem State.writePred_cmdlast (b : Bool) : (s.writePred b).cmdlast = s.cmdlast := rfl
@[simp] theorem State.writePred_id (b : Bool) : (s.writePred b).id = s.id := rfl
@[simp] theorem State.writePred_pending (b : Bool) : (s.writePred b).pending = s.pending := rfl
@[simp] theorem State.writePred_port (b : Bool) : (s.writePred b).port = s.port := rfl
@[simp] theorem State.writePred_rdata (b : Bool) : (s.writePred b).rdata = s.rdata := rfl
@[simp] theorem State.writePred_busyFor (b : Bool) : (s.writePred b).busyFor = s.busyFor := rfl
@[simp] theorem State.writePred_seq (b : Bool) : (s.writePred b).seq = s.seq := rfl

@[simp] theorem State.finish_g : (s.finish).g = s.g := rfl
@[simp] theorem State.finish_norm : (s.finish).norm = s.norm := rfl
@[simp] theorem State.finish_pred : (s.finish).pred = s.pred := rfl
@[simp] theorem State.finish_busy : (s.finish).busy = false := rfl
@[simp] theorem State.finish_wrap : (s.finish).wrap = s.wrap := rfl
@[simp] theorem State.finish_fault : (s.finish).fault = s.fault := rfl
@[simp] theorem State.finish_fcode : (s.finish).fcode = s.fcode := rfl
@[simp] theorem State.finish_finfo : (s.finish).finfo = s.finfo := rfl
@[simp] theorem State.finish_cmdlast : (s.finish).cmdlast = s.cmdlast := rfl
@[simp] theorem State.finish_id : (s.finish).id = s.id := rfl
@[simp] theorem State.finish_pending : (s.finish).pending = none := rfl
@[simp] theorem State.finish_port : (s.finish).port = s.port := rfl
@[simp] theorem State.finish_rdata : (s.finish).rdata = s.rdata := rfl
@[simp] theorem State.finish_busyFor : (s.finish).busyFor = 0 := rfl
@[simp] theorem State.finish_seq : (s.finish).seq = s.seq := rfl

@[simp] theorem State.raise_g (c : FaultCode) (w : Word) : (s.raise c w).g = s.g := rfl
@[simp] theorem State.raise_norm (c : FaultCode) (w : Word) : (s.raise c w).norm = s.norm := rfl
@[simp] theorem State.raise_pred (c : FaultCode) (w : Word) : (s.raise c w).pred = s.pred := rfl
@[simp] theorem State.raise_busy (c : FaultCode) (w : Word) : (s.raise c w).busy = false := rfl
@[simp] theorem State.raise_wrap (c : FaultCode) (w : Word) : (s.raise c w).wrap = s.wrap := rfl
@[simp] theorem State.raise_fault (c : FaultCode) (w : Word) : (s.raise c w).fault = true := rfl
@[simp] theorem State.raise_fcode (c : FaultCode) (w : Word) : (s.raise c w).fcode = if s.fault then s.fcode else c.bits := rfl
@[simp] theorem State.raise_finfo (c : FaultCode) (w : Word) : (s.raise c w).finfo = if s.fault then s.finfo else w := rfl
@[simp] theorem State.raise_cmdlast (c : FaultCode) (w : Word) : (s.raise c w).cmdlast = s.cmdlast := rfl
@[simp] theorem State.raise_id (c : FaultCode) (w : Word) : (s.raise c w).id = s.id := rfl
@[simp] theorem State.raise_pending (c : FaultCode) (w : Word) : (s.raise c w).pending = none := rfl
@[simp] theorem State.raise_port (c : FaultCode) (w : Word) : (s.raise c w).port = s.port := rfl
@[simp] theorem State.raise_rdata (c : FaultCode) (w : Word) : (s.raise c w).rdata = s.rdata := rfl
@[simp] theorem State.raise_busyFor (c : FaultCode) (w : Word) : (s.raise c w).busyFor = 0 := rfl
@[simp] theorem State.raise_seq (c : FaultCode) (w : Word) : (s.raise c w).seq = s.seq := rfl

@[simp] theorem State.raiseCmd_g (c : FaultCode) (i : Instr) : (s.raiseCmd c i).g = s.g := rfl
@[simp] theorem State.raiseCmd_norm (c : FaultCode) (i : Instr) : (s.raiseCmd c i).norm = s.norm := rfl
@[simp] theorem State.raiseCmd_pred (c : FaultCode) (i : Instr) : (s.raiseCmd c i).pred = s.pred := rfl
@[simp] theorem State.raiseCmd_busy (c : FaultCode) (i : Instr) : (s.raiseCmd c i).busy = false := rfl
@[simp] theorem State.raiseCmd_wrap (c : FaultCode) (i : Instr) : (s.raiseCmd c i).wrap = s.wrap := rfl
@[simp] theorem State.raiseCmd_fault (c : FaultCode) (i : Instr) : (s.raiseCmd c i).fault = true := rfl
@[simp] theorem State.raiseCmd_fcode (c : FaultCode) (i : Instr) : (s.raiseCmd c i).fcode = if s.fault then s.fcode else c.bits := rfl
@[simp] theorem State.raiseCmd_finfo (c : FaultCode) (i : Instr) : (s.raiseCmd c i).finfo = if s.fault then s.finfo else encode i := rfl
@[simp] theorem State.raiseCmd_cmdlast (c : FaultCode) (i : Instr) : (s.raiseCmd c i).cmdlast = s.cmdlast := rfl
@[simp] theorem State.raiseCmd_id (c : FaultCode) (i : Instr) : (s.raiseCmd c i).id = s.id := rfl
@[simp] theorem State.raiseCmd_pending (c : FaultCode) (i : Instr) : (s.raiseCmd c i).pending = none := rfl
@[simp] theorem State.raiseCmd_port (c : FaultCode) (i : Instr) : (s.raiseCmd c i).port = s.port := rfl
@[simp] theorem State.raiseCmd_rdata (c : FaultCode) (i : Instr) : (s.raiseCmd c i).rdata = s.rdata := rfl
@[simp] theorem State.raiseCmd_busyFor (c : FaultCode) (i : Instr) : (s.raiseCmd c i).busyFor = 0 := rfl
@[simp] theorem State.raiseCmd_seq (c : FaultCode) (i : Instr) : (s.raiseCmd c i).seq = s.seq := rfl

@[simp] theorem State.raiseAccess_g (off : Offset) : (s.raiseAccess off).g = s.g := rfl
@[simp] theorem State.raiseAccess_norm (off : Offset) : (s.raiseAccess off).norm = s.norm := rfl
@[simp] theorem State.raiseAccess_pred (off : Offset) : (s.raiseAccess off).pred = s.pred := rfl
@[simp] theorem State.raiseAccess_busy (off : Offset) : (s.raiseAccess off).busy = false := rfl
@[simp] theorem State.raiseAccess_wrap (off : Offset) : (s.raiseAccess off).wrap = s.wrap := rfl
@[simp] theorem State.raiseAccess_fault (off : Offset) : (s.raiseAccess off).fault = true := rfl
@[simp] theorem State.raiseAccess_fcode (off : Offset) : (s.raiseAccess off).fcode = if s.fault then s.fcode else 4#4 := rfl
@[simp] theorem State.raiseAccess_finfo (off : Offset) : (s.raiseAccess off).finfo = if s.fault then s.finfo else off.setWidth 32 := rfl
@[simp] theorem State.raiseAccess_cmdlast (off : Offset) : (s.raiseAccess off).cmdlast = s.cmdlast := rfl
@[simp] theorem State.raiseAccess_id (off : Offset) : (s.raiseAccess off).id = s.id := rfl
@[simp] theorem State.raiseAccess_pending (off : Offset) : (s.raiseAccess off).pending = none := rfl
@[simp] theorem State.raiseAccess_port (off : Offset) : (s.raiseAccess off).port = s.port := rfl
@[simp] theorem State.raiseAccess_rdata (off : Offset) : (s.raiseAccess off).rdata = s.rdata := rfl
@[simp] theorem State.raiseAccess_busyFor (off : Offset) : (s.raiseAccess off).busyFor = 0 := rfl
@[simp] theorem State.raiseAccess_seq (off : Offset) : (s.raiseAccess off).seq = s.seq := rfl

@[simp] theorem State.clearFault_g : (s.clearFault).g = s.g := rfl
@[simp] theorem State.clearFault_norm : (s.clearFault).norm = s.norm := rfl
@[simp] theorem State.clearFault_pred : (s.clearFault).pred = s.pred := rfl
@[simp] theorem State.clearFault_busy : (s.clearFault).busy = s.busy := rfl
@[simp] theorem State.clearFault_wrap : (s.clearFault).wrap = s.wrap := rfl
@[simp] theorem State.clearFault_fault : (s.clearFault).fault = false := rfl
@[simp] theorem State.clearFault_fcode : (s.clearFault).fcode = 0#4 := rfl
@[simp] theorem State.clearFault_finfo : (s.clearFault).finfo = 0#32 := rfl
@[simp] theorem State.clearFault_cmdlast : (s.clearFault).cmdlast = s.cmdlast := rfl
@[simp] theorem State.clearFault_id : (s.clearFault).id = s.id := rfl
@[simp] theorem State.clearFault_pending : (s.clearFault).pending = s.pending := rfl
@[simp] theorem State.clearFault_port : (s.clearFault).port = s.port := rfl
@[simp] theorem State.clearFault_rdata : (s.clearFault).rdata = s.rdata := rfl
@[simp] theorem State.clearFault_busyFor : (s.clearFault).busyFor = s.busyFor := rfl
@[simp] theorem State.clearFault_seq : (s.clearFault).seq = s.seq := rfl

@[simp] theorem State.clearWrap_g : (s.clearWrap).g = s.g := rfl
@[simp] theorem State.clearWrap_norm : (s.clearWrap).norm = s.norm := rfl
@[simp] theorem State.clearWrap_pred : (s.clearWrap).pred = s.pred := rfl
@[simp] theorem State.clearWrap_busy : (s.clearWrap).busy = s.busy := rfl
@[simp] theorem State.clearWrap_wrap : (s.clearWrap).wrap = false := rfl
@[simp] theorem State.clearWrap_fault : (s.clearWrap).fault = s.fault := rfl
@[simp] theorem State.clearWrap_fcode : (s.clearWrap).fcode = s.fcode := rfl
@[simp] theorem State.clearWrap_finfo : (s.clearWrap).finfo = s.finfo := rfl
@[simp] theorem State.clearWrap_cmdlast : (s.clearWrap).cmdlast = s.cmdlast := rfl
@[simp] theorem State.clearWrap_id : (s.clearWrap).id = s.id := rfl
@[simp] theorem State.clearWrap_pending : (s.clearWrap).pending = s.pending := rfl
@[simp] theorem State.clearWrap_port : (s.clearWrap).port = s.port := rfl
@[simp] theorem State.clearWrap_rdata : (s.clearWrap).rdata = s.rdata := rfl
@[simp] theorem State.clearWrap_busyFor : (s.clearWrap).busyFor = s.busyFor := rfl
@[simp] theorem State.clearWrap_seq : (s.clearWrap).seq = s.seq := rfl

@[simp] theorem State.accept_g (u : Word) : (s.accept u).g = s.g := rfl
@[simp] theorem State.accept_norm (u : Word) : (s.accept u).norm = s.norm := rfl
@[simp] theorem State.accept_pred (u : Word) : (s.accept u).pred = s.pred := rfl
@[simp] theorem State.accept_busy (u : Word) : (s.accept u).busy = true := rfl
@[simp] theorem State.accept_wrap (u : Word) : (s.accept u).wrap = s.wrap := rfl
@[simp] theorem State.accept_fault (u : Word) : (s.accept u).fault = s.fault := rfl
@[simp] theorem State.accept_fcode (u : Word) : (s.accept u).fcode = s.fcode := rfl
@[simp] theorem State.accept_finfo (u : Word) : (s.accept u).finfo = s.finfo := rfl
@[simp] theorem State.accept_cmdlast (u : Word) : (s.accept u).cmdlast = s.cmdlast := rfl
@[simp] theorem State.accept_id (u : Word) : (s.accept u).id = s.id := rfl
@[simp] theorem State.accept_pending (u : Word) : (s.accept u).pending = some u := rfl
@[simp] theorem State.accept_port (u : Word) : (s.accept u).port = s.port := rfl
@[simp] theorem State.accept_rdata (u : Word) : (s.accept u).rdata = s.rdata := rfl
@[simp] theorem State.accept_busyFor (u : Word) : (s.accept u).busyFor = Config.latency s.seq := rfl
@[simp] theorem State.accept_seq (u : Word) : (s.accept u).seq = s.seq + 1 := rfl

@[simp] theorem State.takeReset_g : (s.takeReset).g = Vector.replicate 16 ⟨0#32, 0#32⟩ := rfl
@[simp] theorem State.takeReset_norm : (s.takeReset).norm = 0#64 := rfl
@[simp] theorem State.takeReset_pred : (s.takeReset).pred = false := rfl
@[simp] theorem State.takeReset_busy : (s.takeReset).busy = false := rfl
@[simp] theorem State.takeReset_wrap : (s.takeReset).wrap = false := rfl
@[simp] theorem State.takeReset_fault : (s.takeReset).fault = false := rfl
@[simp] theorem State.takeReset_fcode : (s.takeReset).fcode = 0#4 := rfl
@[simp] theorem State.takeReset_finfo : (s.takeReset).finfo = 0#32 := rfl
@[simp] theorem State.takeReset_cmdlast : (s.takeReset).cmdlast = 0#32 := rfl
@[simp] theorem State.takeReset_id : (s.takeReset).id = Config.idWord := rfl
@[simp] theorem State.takeReset_pending : (s.takeReset).pending = none := rfl
@[simp] theorem State.takeReset_port : (s.takeReset).port = s.port := rfl
@[simp] theorem State.takeReset_rdata : (s.takeReset).rdata = s.rdata := rfl
@[simp] theorem State.takeReset_busyFor : (s.takeReset).busyFor = 0 := rfl
@[simp] theorem State.takeReset_seq : (s.takeReset).seq = s.seq := rfl

@[simp] theorem State.writeStatus_g (u : Word) : (s.writeStatus u).g = s.g := by
  cases h2 : u[2] <;> cases h3 : u[3] <;> simp [State.writeStatus, h2, h3]
@[simp] theorem State.writeStatus_norm (u : Word) : (s.writeStatus u).norm = s.norm := by
  cases h2 : u[2] <;> cases h3 : u[3] <;> simp [State.writeStatus, h2, h3]
@[simp] theorem State.writeStatus_pred (u : Word) : (s.writeStatus u).pred = s.pred := by
  cases h2 : u[2] <;> cases h3 : u[3] <;> simp [State.writeStatus, h2, h3]
@[simp] theorem State.writeStatus_busy (u : Word) : (s.writeStatus u).busy = s.busy := by
  cases h2 : u[2] <;> cases h3 : u[3] <;> simp [State.writeStatus, h2, h3]
@[simp] theorem State.writeStatus_wrap (u : Word) : (s.writeStatus u).wrap = (s.wrap && !u[2]) := by
  cases h2 : u[2] <;> cases h3 : u[3] <;> simp [State.writeStatus, h2, h3]
@[simp] theorem State.writeStatus_fault (u : Word) : (s.writeStatus u).fault = (s.fault && !u[3]) := by
  cases h2 : u[2] <;> cases h3 : u[3] <;> simp [State.writeStatus, h2, h3]
@[simp] theorem State.writeStatus_fcode (u : Word) : (s.writeStatus u).fcode = if u[3] then 0#4 else s.fcode := by
  cases h2 : u[2] <;> cases h3 : u[3] <;> simp [State.writeStatus, h2, h3]
@[simp] theorem State.writeStatus_finfo (u : Word) : (s.writeStatus u).finfo = if u[3] then 0#32 else s.finfo := by
  cases h2 : u[2] <;> cases h3 : u[3] <;> simp [State.writeStatus, h2, h3]
@[simp] theorem State.writeStatus_cmdlast (u : Word) : (s.writeStatus u).cmdlast = s.cmdlast := by
  cases h2 : u[2] <;> cases h3 : u[3] <;> simp [State.writeStatus, h2, h3]
@[simp] theorem State.writeStatus_id (u : Word) : (s.writeStatus u).id = s.id := by
  cases h2 : u[2] <;> cases h3 : u[3] <;> simp [State.writeStatus, h2, h3]
@[simp] theorem State.writeStatus_pending (u : Word) : (s.writeStatus u).pending = s.pending := by
  cases h2 : u[2] <;> cases h3 : u[3] <;> simp [State.writeStatus, h2, h3]
@[simp] theorem State.writeStatus_port (u : Word) : (s.writeStatus u).port = s.port := by
  cases h2 : u[2] <;> cases h3 : u[3] <;> simp [State.writeStatus, h2, h3]
@[simp] theorem State.writeStatus_rdata (u : Word) : (s.writeStatus u).rdata = s.rdata := by
  cases h2 : u[2] <;> cases h3 : u[3] <;> simp [State.writeStatus, h2, h3]
@[simp] theorem State.writeStatus_busyFor (u : Word) : (s.writeStatus u).busyFor = s.busyFor := by
  cases h2 : u[2] <;> cases h3 : u[3] <;> simp [State.writeStatus, h2, h3]
@[simp] theorem State.writeStatus_seq (u : Word) : (s.writeStatus u).seq = s.seq := by
  cases h2 : u[2] <;> cases h3 : u[3] <;> simp [State.writeStatus, h2, h3]

end Sys2Proof.Machine
end

