-- ==== Sys2Proof/Laws/Bus.lean ====
section
/-! SUPPORT. What a bus access can do, once for each access: the cases of a CMD write, of a read and of a write. -/

namespace Sys2Proof.Machine

open Sys2Proof

/-- A CMD write has three outcomes (20_memory.md R41): ignored, ILLEGAL, accepted. -/
theorem State.issue_cases (u : Word) (s : State) :
    (s.fault = true ∧ s.issue u = { s with cmdlast := u })
    ∨ (s.fault = false ∧ isLegal u = false ∧ s.issue u = { s with cmdlast := u }.raise .illegal u)
    ∨ (s.fault = false ∧ isLegal u = true ∧ s.issue u = { s with cmdlast := u }.accept u) := by
  cases hf : s.fault <;> cases hl : isLegal u <;> simp [State.issue, hf, hl]

/-- A read delivers the word at its offset, or 0 with ACCESS (R34, R39). -/
theorem State.doRead_cases (off : Offset) (size : Nat) (s : State) :
    (wellFormedAccess off size = true ∧ s.doRead off size = { s with rdata := s.readWord off })
    ∨ (wellFormedAccess off size = false ∧ s.doRead off size = { s with rdata := 0#32 }.raise .access (off.setWidth 32)) := by
  cases hw : wellFormedAccess off size <;> simp [State.doRead, State.raiseAccess, hw]

/-- A write acts on the register at its offset, or is ignored with ACCESS (R34, R38). -/
theorem State.doWrite_cases (off : Offset) (size : Nat) (u : Word) (s : State) :
    (wellFormedAccess off size = true ∧ s.doWrite off size u = s.writeReg u (winReg off))
    ∨ (wellFormedAccess off size = false ∧ s.doWrite off size u = s.raise .access (off.setWidth 32)) := by
  cases hw : wellFormedAccess off size <;> simp [State.doWrite, State.raiseAccess, hw]

theorem wellFormedAccess_iff (off : Offset) (size : Nat) :
    wellFormedAccess off size = true ↔ size = 4 ∧ off.toNat % 4 = 0 := by
  simp [wellFormedAccess]

theorem isStatusRead_iff (off : Offset) (size : Nat) : isStatusRead off size = true ↔ size = 4 ∧ off = 8#8 := by
  simp [isStatusRead]

/-- `G_RE[k]` stands at `0x40 + 8k` (R26). -/
@[simp] theorem winReg_gRe (k : Reg) : winReg (BitVec.ofNat 8 (0x40 + 8 * k.val)) = .gRe k := by
  revert k; decide

/-- `G_IM[k]` stands at `0x44 + 8k` (R26). -/
@[simp] theorem winReg_gIm (k : Reg) : winReg (BitVec.ofNat 8 (0x44 + 8 * k.val)) = .gIm k := by
  revert k; decide

/-- Serving the port, said once (R34, R38, R39, R42, R131): nothing waits, a read delivers its word, a write acts on its register, an
access that is not well-formed raises ACCESS, or a reset is taken. -/
theorem State.serve_cases (s : State) :
    (s.port = [] ∧ s.serve = s)
    ∨ (∃ off size rest, s.port = .read off size :: rest ∧ wellFormedAccess off size = true
      ∧ s.serve = { s with port := rest, rdata := s.readWord off })
    ∨ (∃ off size rest, s.port = .read off size :: rest ∧ wellFormedAccess off size = false
      ∧ s.serve = { s with port := rest, rdata := 0#32 }.raise .access (off.setWidth 32))
    ∨ (∃ off size u rest, s.port = .write off size u :: rest ∧ wellFormedAccess off size = true
      ∧ s.serve = { s with port := rest }.writeReg u (winReg off))
    ∨ (∃ off size u rest, s.port = .write off size u :: rest ∧ wellFormedAccess off size = false
      ∧ s.serve = { s with port := rest }.raise .access (off.setWidth 32))
    ∨ (∃ rest, s.port = .reset :: rest ∧ s.serve = { s with port := rest }.takeReset) := by
  unfold State.serve
  split
  case h_1 h => exact .inl ⟨h, rfl⟩
  case h_2 off size rest h =>
    obtain ⟨hw, e⟩ | ⟨hw, e⟩ := State.doRead_cases off size { s with port := rest }
    · refine .inr (.inl ⟨off, size, rest, h, hw, e.trans ?_⟩)
      unfold State.readWord; cases winReg off <;> rfl
    · exact .inr (.inr (.inl ⟨off, size, rest, h, hw, e⟩))
  case h_3 off size u rest h =>
    obtain ⟨hw, e⟩ | ⟨hw, e⟩ := State.doWrite_cases off size u { s with port := rest }
    · exact .inr (.inr (.inr (.inl ⟨off, size, u, rest, h, hw, e⟩)))
    · exact .inr (.inr (.inr (.inr (.inl ⟨off, size, u, rest, h, hw, e⟩))))
  case h_4 rest h => exact .inr (.inr (.inr (.inr (.inr ⟨rest, h, rfl⟩))))

/-- The STATUS word as a number (R39). -/
theorem State.statusWord_toNat (s : State) : s.statusWord.toNat
    = s.busy.toNat + 2 * s.pred.toNat + 4 * s.wrap.toNat + 8 * s.fault.toNat + 16 * s.fcode.toNat := by
  unfold State.statusWord
  generalize s.fcode = c
  rcases s.busy <;> rcases s.pred <;> rcases s.wrap <;> rcases s.fault <;> revert c <;> decide

/-- The four low bits of the STATUS word (R19). -/
theorem State.statusWord_bits (s : State) :
    s.statusWord[0] = s.busy ∧ s.statusWord[1] = s.pred ∧ s.statusWord[2] = s.wrap ∧ s.statusWord[3] = s.fault := by
  unfold State.statusWord
  generalize s.fcode = c
  rcases s.busy <;> rcases s.pred <;> rcases s.wrap <;> rcases s.fault <;> revert c <;> decide

/-- A legal word is one that decodes (R58). -/
theorem isLegal_iff (u : Word) : isLegal u = true ↔ ∃ i, decode u = .ok i := by
  unfold isLegal; cases decode u <;> simp

end Sys2Proof.Machine
end

