-- ==== Sys2Proof/Laws/Encoding.lean ====
section
/-! SUPPORT. The one format of 30_encoding.md R53: fields and words are the same information. -/

namespace Sys2Proof

@[simp] theorem regOf_regBits (r : Reg) : regOf (regBits r) = r := rfl

@[simp] theorem regBits_regOf (b : BitVec 4) : regBits (regOf b) = b := rfl

@[simp] theorem regBits_inj (r r' : Reg) : regBits r = regBits r' ↔ r = r' :=
  ⟨fun h => congrArg regOf h, fun h => congrArg regBits h⟩

/-- The value of a word is the sum of its fields at their places (R53, R61). -/
theorem toNat_wordOf (f : Fields) :
    (wordOf f).toNat = f.opc.toNat * 2 ^ 24 + f.rd.toNat * 2 ^ 20 + f.rd2.toNat * 2 ^ 16 + f.rd3.toNat * 2 ^ 12
      + f.rs1.toNat * 2 ^ 8 + f.rs2.toNat * 2 ^ 4 + f.imm.toNat := by
  obtain ⟨a, b, c, d, e, f, g⟩ := f
  have := a.isLt; have := b.isLt; have := c.isLt; have := d.isLt
  have := e.isLt; have := f.isLt; have := g.isLt
  simp only [wordOf, BitVec.toNat_append]
  simp only [← Nat.shiftLeft_add_eq_or_of_lt, *]
  simp only [Nat.shiftLeft_eq]; ring

@[simp] theorem fieldsOf_wordOf (f : Fields) : fieldsOf (wordOf f) = f := by
  have h := toNat_wordOf f
  obtain ⟨a, b, c, d, e, f, g⟩ := f
  have := a.isLt; have := b.isLt; have := c.isLt; have := d.isLt
  have := e.isLt; have := f.isLt; have := g.isLt
  simp only [fieldsOf, Fields.mk.injEq, ← BitVec.toNat_inj, BitVec.extractLsb'_toNat, Nat.shiftRight_eq_div_pow, h]
  omega

@[simp] theorem wordOf_fieldsOf (u : Word) : wordOf (fieldsOf u) = u := by
  rw [← BitVec.toNat_inj, toNat_wordOf]
  simp only [fieldsOf, BitVec.extractLsb'_toNat, Nat.shiftRight_eq_div_pow]
  omega

/-- Masking a word masks its fields: the link between R57's masks and its fields. -/
theorem wordOf_and (f m : Fields) :
    wordOf f &&& wordOf m = wordOf ⟨f.opc &&& m.opc, f.rd &&& m.rd, f.rd2 &&& m.rd2, f.rd3 &&& m.rd3, f.rs1 &&& m.rs1,
      f.rs2 &&& m.rs2, f.imm &&& m.imm⟩ := by
  refine Eq.trans BitVec.and_append ?_
  simp only [wordOf, BitVec.and_append]

theorem wordOf_injective {f f' : Fields} (h : wordOf f = wordOf f') : f = f' := by
  rw [← fieldsOf_wordOf f, h, fieldsOf_wordOf]

/-- What a check of unused fields that succeeds says (R57). -/
theorem ifZero_ok {fs : List (BitVec 4)} {r : Except Illegal Instr} {i : Instr} (h : ifZero fs r = .ok i) :
    (∀ f ∈ fs, f = 0#4) ∧ r = .ok i := by
  unfold ifZero at h
  split at h
  · rename_i hz; exact ⟨fun f hf => by simpa using List.all_eq_true.1 hz f hf, h⟩
  · cases h

end Sys2Proof
end

