-- ==== Sys2Proof/Laws/Operands.lean ====
section
/-! SUPPORT. The 32-bit values of registers and the exact values they hold: `wrap32`, `fits32`, and the Gaussian integers of
Mathlib as the ring the exact arithmetic lives in. -/

namespace Sys2Proof.Machine

open Sys2Proof

/-- `wrap32` is the balanced residue modulo `2^32` (00_scope.md R6). -/
theorem toInt_wrap32 (v : Int) : (wrap32 v).toInt = (v + 2147483648) % 4294967296 - 2147483648 := by
  rw [wrap32, BitVec.toInt_ofInt, Int.bmod_def]; omega

/-- A representable value is written as it is. -/
theorem toInt_wrap32_of_fits {v : Int} (h : fits32 v) : (wrap32 v).toInt = v := by
  rw [toInt_wrap32]; obtain ⟨h1, h2⟩ := h; omega

@[simp] theorem wrap32_toInt (x : BitVec 32) : wrap32 x.toInt = x := BitVec.ofInt_toInt

/-- Every component of a register is a signed 32-bit value (R12). -/
theorem fits32_toInt (x : BitVec 32) : fits32 x.toInt := by
  have h1 := x.le_toInt; have h2 := x.toInt_lt
  constructor <;> omega

/-- Every register holds a representable value (R12). -/
theorem GReg.val_fits (x : GReg) : x.val.fits := ⟨fits32_toInt _, fits32_toInt _⟩

theorem State.readG_fits (s : State) (k : Reg) : (s.readG k).fits := GReg.val_fits _

@[simp] theorem GReg.val_wrapped (x : GReg) : x.val.wrapped = x := by
  cases x; simp [GReg.val, Gauss.wrapped]

/-- What is written when the value fits is the value (R92, R100, R102: no result is ever wrapped). -/
theorem Gauss.wrapped_val {v : Gauss} (h : v.fits) : v.wrapped.val = v := by
  cases v
  simp only [Gauss.wrapped, GReg.val, toInt_wrap32_of_fits h.1, toInt_wrap32_of_fits h.2]

theorem wrap32_add (x y : BitVec 32) : wrap32 (x.toInt + y.toInt) = x + y := by
  simp [wrap32, BitVec.ofInt_add]

theorem wrap32_neg (x : BitVec 32) : wrap32 (-x.toInt) = -x := by
  simp [wrap32, BitVec.ofInt_neg]

theorem wrap32_mul (x y : BitVec 32) : wrap32 (x.toInt * y.toInt) = x * y := by
  simp [wrap32, BitVec.ofInt_mul]

@[simp] theorem Gauss.isZero_iff (x : Gauss) : x.isZero = true ↔ x = Gauss.zero := by
  cases x; simp [Gauss.isZero, Gauss.zero]

@[simp] theorem predEq_iff (x y : Gauss) : predEq x y = true ↔ x = y := by
  cases x; cases y; simp [predEq]

/-- The exact value as a Gaussian integer of Mathlib. -/
def Gauss.toGI (x : Gauss) : GaussianInt := ⟨x.re, x.im⟩

theorem Gauss.toGI_injective {x y : Gauss} (h : x.toGI = y.toGI) : x = y := by
  cases x; cases y
  simpa [Gauss.toGI, Zsqrtd.ext_iff] using h

@[simp] theorem Gauss.toGI_add (x y : Gauss) : (x.add y).toGI = x.toGI + y.toGI := rfl

@[simp] theorem Gauss.toGI_sub (x y : Gauss) : (x.sub y).toGI = x.toGI - y.toGI := by
  ext <;> simp [Gauss.toGI, Gauss.sub]

@[simp] theorem Gauss.toGI_mul (x y : Gauss) : (x.mul y).toGI = x.toGI * y.toGI := by
  ext <;> simp [Gauss.toGI, Gauss.mul]; ring

@[simp] theorem Gauss.toGI_zero : Gauss.zero.toGI = 0 := rfl

@[simp] theorem Gauss.toGI_one : Gauss.one.toGI = 1 := rfl

theorem Gauss.norm_nonneg (x : Gauss) : 0 ≤ x.norm := by
  exact add_nonneg (mul_self_nonneg _) (mul_self_nonneg _)

theorem Gauss.norm_eq_zero (x : Gauss) : x.norm = 0 ↔ x = Gauss.zero := by
  cases x
  simp only [Gauss.norm, Gauss.zero, Gauss.mk.injEq]
  constructor
  · intro h; constructor <;> nlinarith [mul_self_nonneg (‹Int› : Int)]
  · rintro ⟨rfl, rfl⟩; rfl

/-- The norm of a representable value is at most `2^63` (R15). -/
theorem Gauss.norm_le_of_fits {x : Gauss} (h : x.fits) : x.norm ≤ 2 ^ 63 := by
  obtain ⟨⟨h1, h2⟩, h3, h4⟩ := h
  unfold Gauss.norm; nlinarith

/-- The remainder is what the quotient leaves, exactly, for every divisor (R91). -/
theorem remG_spec (t : TieRule) (n d : Gauss) : n = (d.mul (quotG t n d)).add (remG t n d) := by
  apply Gauss.toGI_injective; simp [remG]

/-- A register's contents and its Gaussian value determine one another (R12). -/
theorem GReg.val_inj {x y : GReg} : x.val = y.val ↔ x = y := by
  cases x; cases y; simp [GReg.val, BitVec.toInt_inj]

/-- Subtraction commutes with taking 32 (or any number of) bits. -/
theorem ofInt_sub (n : Nat) (x y : Int) : BitVec.ofInt n (x - y) = BitVec.ofInt n x - BitVec.ofInt n y := by
  rw [Int.sub_eq_add_neg, BitVec.ofInt_add, BitVec.ofInt_neg, BitVec.sub_eq_add_neg]

end Sys2Proof.Machine
end

