-- ==== Sys2Proof/Laws/Ops.lean ====
section
/-! SUPPORT. What the shared operations on registers do: a write is read back, and leaves every other register alone. -/

namespace Sys2Proof.Machine

open Sys2Proof

/-- Reading a register after `putG`: the value written where it fits, and every other register as before. -/
theorem State.readG_putG (s : State) (k j : Reg) (v : Gauss) :
    (s.putG k v).readG j = if k = j then v.wrapped.val else s.readG j := by
  by_cases h : k = j
  · subst h; simp [State.readG]
  · simp [State.readG, h, Fin.val_inj]

/-- Reading a register after `writeG`: the wrapped value, and every other register as before. -/
theorem State.readG_writeG (s : State) (k j : Reg) (v : Gauss) :
    (s.writeG k v).readG j = if k = j then v.wrapped.val else s.readG j := by
  by_cases h : k = j
  · subst h; simp [State.readG]
  · simp [State.readG, h, Fin.val_inj]

@[simp] theorem State.readG_finish (s : State) (j : Reg) : s.finish.readG j = s.readG j := rfl

@[simp] theorem State.readG_raise (s : State) (c : FaultCode) (w : Word) (j : Reg) : (s.raise c w).readG j = s.readG j := rfl

@[simp] theorem State.readG_raiseCmd (s : State) (c : FaultCode) (i : Instr) (j : Reg) :
    (s.raiseCmd c i).readG j = s.readG j := rfl

/-- The first fault since the last clear is recorded (R117). -/
theorem State.raise_first {s : State} (c : FaultCode) (w : Word) (h : s.fault = false) :
    (s.raise c w).fcode = c.bits ∧ (s.raise c w).finfo = w ∧ (s.raise c w).fault = true := by
  simp [h]

/-- A later fault leaves the record as it is (R117, R121). -/
theorem State.raise_later {s : State} (c : FaultCode) (w : Word) (h : s.fault = true) :
    (s.raise c w).fcode = s.fcode ∧ (s.raise c w).finfo = s.finfo ∧ (s.raise c w).fault = true := by
  simp [h]

/-- WRAP is sticky (R21, R65). -/
theorem wrapFlag_sticky (v : Gauss) : wrapFlag true v = true := rfl

theorem wrapFlag_of_fits {v : Gauss} (old : Bool) (h : v.fits) : wrapFlag old v = old := by
  simp [wrapFlag, h]

theorem wrapFlag_of_not_fits {v : Gauss} (old : Bool) (h : ¬ v.fits) : wrapFlag old v = true := by
  simp [wrapFlag, h]

/-- Writing one register leaves the others. -/
theorem g_set_other (g : Vector GReg 16) (k j : Reg) (v : GReg) (h : j ≠ k) : (g.set k v)[j] = g[j] := by
  simp [Fin.val_inj, h.symm]

end Sys2Proof.Machine
end

