-- ==== Sys2Proof/Laws/Exec.lean ====
section
/-! SUPPORT. What executing a command can do, said once: every command answers a next state, completes or records a fault, and
keeps what no command writes. -/

namespace Sys2Proof.Machine

open Sys2Proof

/-- How DIV ends (42_division.md R92). -/
theorem execDiv_cases (rd rd2 rs1 rs2 : Reg) (s : State) :
    ((s.readG rs2) = Gauss.zero ∧ execDiv rd rd2 rs1 rs2 s = .next (s.raiseCmd .divzero (.div rd rd2 rs1 rs2)))
    ∨ (s.readG rs2 ≠ Gauss.zero
      ∧ ¬ ((quotG Config.tieRule (s.readG rs1) (s.readG rs2)).fits ∧ (remG Config.tieRule (s.readG rs1) (s.readG rs2)).fits)
      ∧ execDiv rd rd2 rs1 rs2 s = .next (s.raiseCmd .range (.div rd rd2 rs1 rs2)))
    ∨ (s.readG rs2 ≠ Gauss.zero
      ∧ (quotG Config.tieRule (s.readG rs1) (s.readG rs2)).fits ∧ (remG Config.tieRule (s.readG rs1) (s.readG rs2)).fits
      ∧ execDiv rd rd2 rs1 rs2 s = .next ((s.putG rd (quotG Config.tieRule (s.readG rs1) (s.readG rs2))).putG rd2
          (remG Config.tieRule (s.readG rs1) (s.readG rs2))).finish) := by
  by_cases hz : s.readG rs2 = Gauss.zero
  · exact .inl ⟨hz, by simp [execDiv, hz, Gauss.isZero, Gauss.zero]⟩
  · have hz' : (s.readG rs2).isZero = false := Bool.eq_false_iff.2 (mt (Gauss.isZero_iff _).1 hz)
    by_cases hf : (quotG Config.tieRule (s.readG rs1) (s.readG rs2)).fits
        ∧ (remG Config.tieRule (s.readG rs1) (s.readG rs2)).fits
    · exact .inr (.inr ⟨hz, hf.1, hf.2, by rw [execDiv, hz', if_neg (by simp), if_pos hf]⟩)
    · exact .inr (.inl ⟨hz, hf, by rw [execDiv, hz', if_neg (by simp), if_neg hf]⟩)

/-- How GCD ends (43_gcd.md R100). -/
theorem execGcd_cases (rd rs1 rs2 : Reg) (s : State) :
    ((gcdG Config.tieRule (s.readG rs1) (s.readG rs2)).fits
      ∧ execGcd rd rs1 rs2 s = .next (s.putG rd (gcdG Config.tieRule (s.readG rs1) (s.readG rs2))).finish)
    ∨ (¬ (gcdG Config.tieRule (s.readG rs1) (s.readG rs2)).fits
      ∧ execGcd rd rs1 rs2 s = .next (s.raiseCmd .range (.gcd rd rs1 rs2))) := by
  by_cases hf : (gcdG Config.tieRule (s.readG rs1) (s.readG rs2)).fits
  · exact .inl ⟨hf, by rw [execGcd, if_pos hf]⟩
  · exact .inr ⟨hf, by rw [execGcd, if_neg hf]⟩

/-- How XGCD ends (43_gcd.md R102). -/
theorem execXgcd_cases (rd rd2 rd3 rs1 rs2 : Reg) (s : State) :
    ((xgcdG Config.tieRule (s.readG rs1) (s.readG rs2)).fits
      ∧ execXgcd rd rd2 rd3 rs1 rs2 s = .next (((s.putG rd (xgcdG Config.tieRule (s.readG rs1) (s.readG rs2)).oldR).putG rd2
          (xgcdG Config.tieRule (s.readG rs1) (s.readG rs2)).oldS).putG rd3
          (xgcdG Config.tieRule (s.readG rs1) (s.readG rs2)).oldT).finish)
    ∨ (¬ (xgcdG Config.tieRule (s.readG rs1) (s.readG rs2)).fits
      ∧ execXgcd rd rd2 rd3 rs1 rs2 s = .next (s.raiseCmd .range (.xgcd rd rd2 rd3 rs1 rs2))) := by
  by_cases hf : (xgcdG Config.tieRule (s.readG rs1) (s.readG rs2)).fits
  · exact .inl ⟨hf, by rw [execXgcd, if_pos hf]⟩
  · exact .inr ⟨hf, by rw [execXgcd, if_neg hf]⟩

/-- What no command touches, and what every completion does (10_state.md R10, R24). -/
structure Completes (s t : State) : Prop where
  slotEmpty : t.pending = none
  notBusy : t.busy = false
  noLatency : t.busyFor = 0
  port : t.port = s.port
  rdata : t.rdata = s.rdata
  seq : t.seq = s.seq
  id : t.id = s.id
  cmdlast : t.cmdlast = s.cmdlast

/-- Every command answers a next state and completes. -/
theorem exec_completes (i : Instr) (s : State) : ∃ t, exec i s = .next t ∧ Completes s t := by
  cases i with
  | div rd rd2 rs1 rs2 =>
    obtain ⟨_, h⟩ | ⟨_, _, h⟩ | ⟨_, _, _, h⟩ := execDiv_cases rd rd2 rs1 rs2 s <;>
      exact ⟨_, h, by constructor <;> rfl⟩
  | gcd rd rs1 rs2 =>
    obtain ⟨_, h⟩ | ⟨_, h⟩ := execGcd_cases rd rs1 rs2 s <;> exact ⟨_, h, by constructor <;> rfl⟩
  | xgcd rd rd2 rd3 rs1 rs2 =>
    obtain ⟨_, h⟩ | ⟨_, h⟩ := execXgcd_cases rd rd2 rd3 rs1 rs2 s <;> exact ⟨_, h, by constructor <;> rfl⟩
  | _ => exact ⟨_, rfl, by constructor <;> rfl⟩

end Sys2Proof.Machine
end

