-- ==== Sys2Proof/Laws/PerInstr.lean ====
section
/-! SUPPORT. Statements for all instructions, as one lemma per constructor.
`FieldRoundTrip`: decoding the fields of a well-formed command gives it back. -/

namespace Sys2Proof.Laws

open Sys2Proof

/-- Decoding the fields of a well-formed command gives it back (R57, R58, R61). -/
def FieldRoundTrip.Statement (i : Instr) : Prop := i.wellFormed = true → decodeFields (encodeFields i) = .ok i

section FieldRoundTrip

theorem FieldRoundTrip.add (rd rs1 rs2 : Reg) : FieldRoundTrip.Statement (.add rd rs1 rs2) := fun _ => rfl
theorem FieldRoundTrip.sub (rd rs1 rs2 : Reg) : FieldRoundTrip.Statement (.sub rd rs1 rs2) := fun _ => rfl
theorem FieldRoundTrip.mul (rd rs1 rs2 : Reg) : FieldRoundTrip.Statement (.mul rd rs1 rs2) := fun _ => rfl
theorem FieldRoundTrip.conj (rd rs1 : Reg) : FieldRoundTrip.Statement (.conj rd rs1) := fun _ => rfl
theorem FieldRoundTrip.norm (rs1 : Reg) : FieldRoundTrip.Statement (.norm rs1) := fun _ => rfl
theorem FieldRoundTrip.ldc (rd : Reg) (k : GConst) : FieldRoundTrip.Statement (.ldc rd k) := fun _ => by cases k <;> rfl
theorem FieldRoundTrip.eq (rs1 rs2 : Reg) : FieldRoundTrip.Statement (.eq rs1 rs2) := fun _ => rfl
theorem FieldRoundTrip.iszero (rs1 : Reg) : FieldRoundTrip.Statement (.iszero rs1) := fun _ => rfl
theorem FieldRoundTrip.isunit (rs1 : Reg) : FieldRoundTrip.Statement (.isunit rs1) := fun _ => rfl
theorem FieldRoundTrip.isassoc (rs1 rs2 : Reg) : FieldRoundTrip.Statement (.isassoc rs1 rs2) := fun _ => rfl
theorem FieldRoundTrip.div (rd rd2 rs1 rs2 : Reg) : FieldRoundTrip.Statement (.div rd rd2 rs1 rs2) := fun h => by
  have hne : rd ≠ rd2 := by simpa [Instr.wellFormed] using h
  simp [decodeFields, encodeFields, ifZero, decodeDiv, hne]
theorem FieldRoundTrip.gcd (rd rs1 rs2 : Reg) : FieldRoundTrip.Statement (.gcd rd rs1 rs2) := fun _ => rfl
theorem FieldRoundTrip.xgcd (rd rd2 rd3 rs1 rs2 : Reg) : FieldRoundTrip.Statement (.xgcd rd rd2 rd3 rs1 rs2) := fun h => by
  have hne : (rd ≠ rd2 ∧ rd ≠ rd3) ∧ rd2 ≠ rd3 := by simpa [Instr.wellFormed] using h
  simp [decodeFields, encodeFields, ifZero, decodeXgcd, hne]

end FieldRoundTrip

end Sys2Proof.Laws
end

