-- ==== Sys2Proof/Laws/Step.lean ====
section
/-! SUPPORT. What one step can be, said once: the port is served, a STATUS read is served while a command executes, or the command
in the slot completes. -/

namespace Sys2Proof.Machine

open Sys2Proof

/-- The four steps (20_memory.md R40, R42; 70_reset_and_hazards.md R133). -/
theorem step_cases (s : State) :
    ((s.resetNext = true ∨ s.pending = none) ∧ step s = .next s.serve)
    ∨ (∃ u, s.resetNext = false ∧ s.pending = some u ∧ s.readsWhileBusy = true ∧ step s = .next s.serveWhileBusy)
    ∨ (∃ u i, s.resetNext = false ∧ s.pending = some u ∧ s.readsWhileBusy = false ∧ decode u = .ok i ∧ step s = exec i s)
    ∨ (∃ u e, s.resetNext = false ∧ s.pending = some u ∧ s.readsWhileBusy = false ∧ decode u = .error e
      ∧ step s = .next (s.raise .illegal u)) := by
  unfold step
  cases hr : s.resetNext with
  | true => exact .inl ⟨.inl rfl, rfl⟩
  | false =>
    cases hp : s.pending with
    | none => exact .inl ⟨.inr rfl, rfl⟩
    | some u =>
      cases hb : s.readsWhileBusy with
      | true => exact .inr (.inl ⟨u, rfl, rfl, rfl, by simp⟩)
      | false =>
        cases hd : decode u with
        | ok i => exact .inr (.inr (.inl ⟨u, i, rfl, rfl, rfl, hd, by simp [runSlot, hd]⟩))
        | error e => exact .inr (.inr (.inr ⟨u, e, rfl, rfl, rfl, hd, by simp [runSlot, hd]⟩))

/-- With an empty slot a step performs the input at the head of the port (R42). -/
theorem step_idle {s : State} (h : s.pending = none) : step s = .next s.serve := by
  unfold step; rw [h]; cases s.resetNext <;> rfl

end Sys2Proof.Machine
end

