-- ==== Sys2Proof/Tests/Slice0.lean ====
section
/-! SUPPORT. The model's own tests. Expected values are the vectors of 95_test_vectors.md (the section stands at each group) or are
written out from the rule cited. The second half gives, for every statement with hypotheses, concrete states and operands that meet them. -/

namespace Sys2Proof.Tests

open Sys2Proof Sys2Proof.Machine

/-- The vectors' `m`, `-2^31`, as a component. -/
abbrev m : BitVec 32 := 0x80000000#32

/-- The vectors' `M`, `2^31 - 1`, as a component. -/
abbrev mx : BitVec 32 := 0x7FFFFFFF#32

/-- The reset state with `G[1] = x` and `G[2] = y`. -/
def ops (x y : GReg) : State := { State.reset with g := (State.reset.g.set 1 x).set 2 y }

/-- The reset state with the given inputs at the port. -/
def port (p : List PortInput) : State := { State.reset with port := p }

/-- The state after the DIVZERO of program P4, with the given inputs at the port. -/
def halted (p : List PortInput) : State := (port p).raise .divzero 0x20120300#32

/-- `G[k]` after an outcome. -/
def regAfter (k : Reg) (o : Outcome) : Option Gauss :=
  match o with
  | .next s => some (s.readG k)
  | .fault _ => none
  | .refused _ => none

/-- A field of the state after an outcome. -/
def after {α : Type} (f : State → α) (o : Outcome) : Option α :=
  match o with
  | .next s => some (f s)
  | .fault _ => none
  | .refused _ => none

/-- STATUS and FINFO. -/
def record (s : State) : Word × Word := (s.statusWord, s.finfo)

/-- The last data read. -/
def data (s : State) : Word := s.rdata

/-! ### WellFormed: one ill-formed term for each check (R58 (3), (4)) -/

theorem test_wellFormed_refuses_equal_div_destinations : Instr.wellFormed (.div 1 1 0 0) = false := by decide
theorem test_wellFormed_refuses_xgcd_rd_rd2 : Instr.wellFormed (.xgcd 3 3 4 1 2) = false := by decide
theorem test_wellFormed_refuses_xgcd_rd_rd3 : Instr.wellFormed (.xgcd 3 4 3 1 2) = false := by decide
theorem test_wellFormed_refuses_xgcd_rd2_rd3 : Instr.wellFormed (.xgcd 4 3 3 1 2) = false := by decide
theorem test_wellFormed_admits_destinations_equal_to_sources :
    Instr.wellFormed (.div 1 2 1 2) = true ∧ Instr.wellFormed (.xgcd 1 2 3 1 2) = true := by decide

/-! ### Decoding: words written out from R53, R56, R57 (vectors of 2.1, programs P1 to P6) -/

theorem test_decode_add : decode 0b00000001_0011_0000_0000_0001_0010_0000#32 = .ok (.add 3 1 2) := by decide
theorem test_decode_sub : decode 0b00000010_0011_0000_0000_0001_0010_0000#32 = .ok (.sub 3 1 2) := by decide
theorem test_decode_mul : decode 0b00000011_0101_0000_0000_0010_0011_0000#32 = .ok (.mul 5 2 3) := by decide
theorem test_decode_conj : decode 0b00000100_0100_0000_0000_0010_0000_0000#32 = .ok (.conj 4 2) := by decide
theorem test_decode_norm : decode 0b00000101_0000_0000_0000_0010_0000_0000#32 = .ok (.norm 2) := by decide
theorem test_decode_ldc : decode 0b00000110_0101_0000_0000_0000_0000_0010#32 = .ok (.ldc 5 .i) := by decide
theorem test_decode_eq : decode 0b00010000_0000_0000_0000_0110_0001_0000#32 = .ok (.eq 6 1) := by decide
theorem test_decode_iszero : decode 0b00010001_0000_0000_0000_0010_0000_0000#32 = .ok (.iszero 2) := by decide
theorem test_decode_isunit : decode 0b00010010_0000_0000_0000_1111_0000_0000#32 = .ok (.isunit 15) := by decide
theorem test_decode_isassoc : decode 0b00010011_0000_0000_0000_1001_0011_0000#32 = .ok (.isassoc 9 3) := by decide
theorem test_decode_div : decode 0b00100000_0011_0100_0000_0001_0010_0000#32 = .ok (.div 3 4 1 2) := by decide
theorem test_decode_gcd : decode 0b00100001_1001_0000_0000_0001_0010_0000#32 = .ok (.gcd 9 1 2) := by decide
theorem test_decode_xgcd : decode 0b00100010_0011_0100_0101_0001_0010_0000#32 = .ok (.xgcd 3 4 5 1 2) := by decide

theorem test_decode_undefined_opcodes :
    decode 0x00000000#32 = .error .undefinedOpcode ∧ decode 0x07000000#32 = .error .undefinedOpcode
    ∧ decode 0x14000000#32 = .error .undefinedOpcode ∧ decode 0x23000000#32 = .error .undefinedOpcode
    ∧ decode 0xFF000000#32 = .error .undefinedOpcode := by decide
theorem test_decode_unused_fields :
    decode 0x01010000#32 = .error .unusedFieldNonzero ∧ decode 0x01000001#32 = .error .unusedFieldNonzero
    ∧ decode 0x04400210#32 = .error .unusedFieldNonzero ∧ decode 0x05100000#32 = .error .unusedFieldNonzero
    ∧ decode 0x12000001#32 = .error .unusedFieldNonzero ∧ decode 0x20345120#32 = .error .unusedFieldNonzero := by decide
theorem test_decode_extra_conditions :
    decode 0x06500003#32 = .error .badSelector ∧ decode 0x20110000#32 = .error .equalDivDestinations
    ∧ decode 0x22000000#32 = .error .equalXgcdDestinations ∧ decode 0x22334120#32 = .error .equalXgcdDestinations
    ∧ decode 0x22012000#32 = .ok (.xgcd 0 1 2 0 0) ∧ decode 0x01000000#32 = .ok (.add 0 0 0) := by decide
/-- The opcode table's numbering is the word's own. -/
theorem test_decodeTableWord :
    decodeTableWord 32 0x20340120 = some (.div 3 4 1 2) ∧ decodeTableWord 32 0x20000000 = none := by decide

/-! ### One command each (vectors of 2.2 to 2.5) -/

theorem test_add_wraps :
    regAfter 3 (exec (.add 3 1 2) (ops ⟨mx, 0#32⟩ ⟨1#32, 0#32⟩)) = some ⟨-2147483648, 0⟩
    ∧ after State.wrap (exec (.add 3 1 2) (ops ⟨mx, 0#32⟩ ⟨1#32, 0#32⟩)) = some true := by decide
theorem test_add_aliased :
    regAfter 1 (exec (.add 1 1 1) (ops ⟨3#32, 4#32⟩ ⟨0#32, 0#32⟩)) = some ⟨6, 8⟩
    ∧ after State.wrap (exec (.add 1 1 1) (ops ⟨3#32, 4#32⟩ ⟨0#32, 0#32⟩)) = some false := by decide
theorem test_sub_subtracts_the_second :
    regAfter 3 (exec (.sub 3 1 2) (ops ⟨5#32, 3#32⟩ ⟨2#32, 7#32⟩)) = some ⟨3, -4⟩ := by decide
theorem test_sub_wraps :
    regAfter 3 (exec (.sub 3 1 2) (ops ⟨m, 0#32⟩ ⟨1#32, 0#32⟩)) = some ⟨2147483647, 0⟩
    ∧ after State.wrap (exec (.sub 3 1 2) (ops ⟨m, 0#32⟩ ⟨1#32, 0#32⟩)) = some true := by decide
theorem test_mul :
    regAfter 3 (exec (.mul 3 1 2) (ops ⟨1#32, 2#32⟩ ⟨3#32, 4#32⟩)) = some ⟨-5, 10⟩ := by decide
theorem test_mul_wraps :
    regAfter 3 (exec (.mul 3 1 1) (ops ⟨46341#32, 0#32⟩ ⟨0#32, 0#32⟩)) = some ⟨-2147479015, 0⟩
    ∧ after State.wrap (exec (.mul 3 1 1) (ops ⟨m, m⟩ ⟨0#32, 0#32⟩)) = some true := by decide
theorem test_conj :
    regAfter 3 (exec (.conj 3 1) (ops ⟨m, mx⟩ ⟨0#32, 0#32⟩)) = some ⟨-2147483648, -2147483647⟩ := by decide
theorem test_conj_wraps :
    regAfter 3 (exec (.conj 3 1) (ops ⟨5#32, m⟩ ⟨0#32, 0#32⟩)) = some ⟨5, -2147483648⟩
    ∧ after State.wrap (exec (.conj 3 1) (ops ⟨5#32, m⟩ ⟨0#32, 0#32⟩)) = some true := by decide
theorem test_norm_at_2_to_63 :
    after State.norm (exec (.norm 1) (ops ⟨m, m⟩ ⟨0#32, 0#32⟩)) = some 0x8000000000000000#64
    ∧ after State.norm (exec (.norm 1) (ops ⟨mx, m⟩ ⟨0#32, 0#32⟩)) = some 0x7FFFFFFF00000001#64 := by decide
theorem test_norm_writes_no_flag :
    after State.statusWord (exec (.norm 1) (ops ⟨m, m⟩ ⟨0#32, 0#32⟩)) = some 0#32 := by decide
theorem test_ldc :
    regAfter 5 (exec (.ldc 5 .i) State.reset) = some ⟨0, 1⟩ ∧ regAfter 5 (exec (.ldc 5 .one) State.reset) = some ⟨1, 0⟩
    ∧ regAfter 1 (exec (.ldc 1 .zero) (ops ⟨7#32, 7#32⟩ ⟨0#32, 0#32⟩)) = some ⟨0, 0⟩ := by decide
theorem test_eq :
    after State.pred (exec (.eq 1 2) (ops ⟨1#32, 2#32⟩ ⟨1#32, 2#32⟩)) = some true
    ∧ after State.pred (exec (.eq 1 2) (ops ⟨0#32, m⟩ ⟨0#32, mx⟩)) = some false := by decide
theorem test_iszero :
    after State.pred (exec (.iszero 1) (ops ⟨0#32, 0#32⟩ ⟨0#32, 0#32⟩)) = some true
    ∧ after State.pred (exec (.iszero 1) { ops ⟨0#32, 1#32⟩ ⟨0#32, 0#32⟩ with pred := true }) = some false := by decide
theorem test_isunit :
    after State.pred (exec (.isunit 1) (ops ⟨0#32, 0xFFFFFFFF#32⟩ ⟨0#32, 0#32⟩)) = some true
    ∧ after State.pred (exec (.isunit 1) (ops ⟨1#32, 1#32⟩ ⟨0#32, 0#32⟩)) = some false
    ∧ after State.pred (exec (.isunit 1) (ops ⟨m, 0#32⟩ ⟨0#32, 0#32⟩)) = some false := by decide
theorem test_isassoc_by_i :
    after State.pred (exec (.isassoc 1 2) (ops ⟨0xFFFFFFFC#32, 3#32⟩ ⟨3#32, 4#32⟩)) = some true
    ∧ after State.pred (exec (.isassoc 1 2) (ops ⟨2#32, 0xFFFFFFFF#32⟩ ⟨1#32, 2#32⟩)) = some true
    ∧ after State.pred (exec (.isassoc 1 2) (ops ⟨1#32, 2#32⟩ ⟨2#32, 1#32⟩)) = some false := by decide
theorem test_isassoc_products_are_exact :
    after State.pred (exec (.isassoc 1 2) (ops ⟨m, 0xFFFFFFFB#32⟩ ⟨m, 5#32⟩)) = some false
    ∧ after State.pred (exec (.isassoc 1 2) (ops ⟨m, 0#32⟩ ⟨0#32, m⟩)) = some true := by decide

/-- `13+11i` by `3-4i`, under both tie rules. -/
theorem test_div_of_the_source (t : TieRule) :
    quotG t ⟨13, 11⟩ ⟨3, -4⟩ = ⟨0, 3⟩ ∧ remG t ⟨13, 11⟩ ⟨3, -4⟩ = ⟨1, 2⟩ := by cases t <;> decide
theorem test_div_ties :
    quotG .halfAwayFromZero ⟨-5, 0⟩ ⟨2, 0⟩ = ⟨-3, 0⟩ ∧ quotG .halfToEven ⟨-5, 0⟩ ⟨2, 0⟩ = ⟨-2, 0⟩
    ∧ quotG .halfAwayFromZero ⟨1, 0⟩ ⟨1, 1⟩ = ⟨1, -1⟩ ∧ quotG .halfToEven ⟨1, 0⟩ ⟨1, 1⟩ = ⟨0, 0⟩
    ∧ quotG .halfAwayFromZero ⟨7, 0⟩ ⟨2, 0⟩ = ⟨4, 0⟩ ∧ quotG .halfToEven ⟨7, 0⟩ ⟨2, 0⟩ = ⟨4, 0⟩
    ∧ remG .halfAwayFromZero ⟨-2147483648, 0⟩ ⟨-2147483648, -2147483648⟩ = ⟨2147483648, 0⟩
    ∧ remG .halfToEven ⟨-2147483648, 0⟩ ⟨-2147483648, -2147483648⟩ = ⟨-2147483648, 0⟩ := by decide
theorem test_div_aliased :
    regAfter 1 (exec (.div 1 2 1 2) (ops ⟨13#32, 11#32⟩ ⟨3#32, 0xFFFFFFFC#32⟩)) = some ⟨0, 3⟩
    ∧ regAfter 2 (exec (.div 1 2 1 2) (ops ⟨13#32, 11#32⟩ ⟨3#32, 0xFFFFFFFC#32⟩)) = some ⟨1, 2⟩ := by
  unfold exec execDiv; generalize Config.tieRule = t; cases t <;> decide
theorem test_div_faults :
    after record (exec (.div 1 2 3 0) State.reset) = some (0x28#32, 0x20120300#32)
    ∧ after record (exec (.div 3 4 1 2) (ops ⟨m, 0#32⟩ ⟨0xFFFFFFFF#32, 0#32⟩)) = some (0x38#32, 0x20340120#32)
    ∧ regAfter 4 (exec (.div 3 4 1 2) (ops ⟨m, 0#32⟩ ⟨0xFFFFFFFF#32, 0#32⟩)) = some ⟨0, 0⟩ := by
  unfold exec execDiv; generalize Config.tieRule = t; cases t <;> decide
theorem test_gcd (t : TieRule) :
    gcdG t ⟨13, 11⟩ ⟨3, -4⟩ = ⟨1, 2⟩ ∧ gcdG t ⟨0, 0⟩ ⟨0, 0⟩ = ⟨0, 0⟩ ∧ gcdG t ⟨4, 0⟩ ⟨6, 0⟩ = ⟨-2, 0⟩
    ∧ gcdG t ⟨11, 3⟩ ⟨1, 8⟩ = ⟨1, -2⟩ ∧ gcdG t ⟨-2147483648, 0⟩ ⟨0, 1⟩ = ⟨0, 1⟩ := by cases t <;> decide
theorem test_gcd_out_of_range :
    gcdG .halfAwayFromZero ⟨-2147483648, 0⟩ ⟨-2147483648, -2147483648⟩ = ⟨2147483648, 0⟩
    ∧ gcdG .halfToEven ⟨-2147483648, 0⟩ ⟨-2147483648, -2147483648⟩ = ⟨-2147483648, 0⟩ := by decide
/-- The destination check of 2.5: `xgcd g1, g2, g3, g1, g2`. -/
theorem test_xgcd_aliased :
    regAfter 1 (exec (.xgcd 1 2 3 1 2) (ops ⟨13#32, 11#32⟩ ⟨3#32, 0xFFFFFFFC#32⟩)) = some ⟨1, 2⟩
    ∧ regAfter 2 (exec (.xgcd 1 2 3 1 2) (ops ⟨13#32, 11#32⟩ ⟨3#32, 0xFFFFFFFC#32⟩)) = some ⟨1, 0⟩
    ∧ regAfter 3 (exec (.xgcd 1 2 3 1 2) (ops ⟨13#32, 11#32⟩ ⟨3#32, 0xFFFFFFFC#32⟩)) = some ⟨0, -3⟩ := by
  unfold exec execXgcd; generalize Config.tieRule = t; cases t <;> decide
/-- `xgcd` of `(m, m+1)` and `(1, 1)`: `t = (2^31, -1)` does not fit, so RANGE, and nothing is written. -/
theorem test_xgcd_range :
    after record (exec (.xgcd 3 4 5 1 2) (ops ⟨m, 0x80000001#32⟩ ⟨1#32, 1#32⟩)) = some (0x38#32, 0x22345120#32)
    ∧ regAfter 3 (exec (.xgcd 3 4 5 1 2) (ops ⟨m, 0x80000001#32⟩ ⟨1#32, 1#32⟩)) = some ⟨0, 0⟩ := by
  unfold exec execXgcd; generalize Config.tieRule = t; cases t <;> decide

/-! ### Bus, status, faults (vectors of 2.6) -/

theorem test_bus_id_is_read_only :
    after data (step (port [.read 0x00#8 4])) = some 0x47490001#32
    ∧ after (fun s => s.readWord 0x00#8) (step (port [.write 0x00#8 4 0x12345678#32])) = some 0x47490001#32 := by decide
theorem test_bus_two_byte_write :
    after record (step (port [.write 0x40#8 2 0xFFFF#32])) = some (0x48#32, 0x40#32)
    ∧ regAfter 0 (step (port [.write 0x40#8 2 0xFFFF#32])) = some ⟨0, 0⟩ := by decide
theorem test_bus_first_record_is_kept :
    after record (step ((port [.write 0x06#8 4 0#32]).raise .access 0x41#32)) = some (0x48#32, 0x41#32) := by decide
theorem test_bus_component_write :
    regAfter 15 (step (port [.write 0xB8#8 4 7#32])) = some ⟨7, 0⟩
    ∧ regAfter 0 (step (port [.write 0x44#8 4 m])) = some ⟨0, -2147483648⟩ := by decide
theorem test_cmd_illegal :
    after record (step (port [.write 0x04#8 4 0#32])) = some (0x18#32, 0#32)
    ∧ after record (step (port [.write 0x04#8 4 0x06500003#32])) = some (0x18#32, 0x06500003#32)
    ∧ after State.cmdlast (step (port [.write 0x04#8 4 0x06500003#32])) = some 0x06500003#32 := by decide
theorem test_cmd_ignored_while_faulted :
    after State.pending (step (halted [.write 0x04#8 4 0x06500002#32])) = some none
    ∧ after State.cmdlast (step (halted [.write 0x04#8 4 0x06500002#32])) = some 0x06500002#32
    ∧ after record (step (halted [.write 0x08#8 4 8#32])) = some (0#32, 0#32) := by decide
theorem test_status_w1c :
    after State.statusWord (step { port [.write 0x08#8 4 8#32] with pred := true, wrap := true }) = some 6#32
    ∧ after State.statusWord (step { port [.write 0x08#8 4 4#32] with wrap := true }) = some 0#32
    ∧ after State.statusWord (step { port [.write 0x08#8 4 3#32] with wrap := true }) = some 4#32 := by decide
/-- An accepted command fills the slot and BUSY, and a read of STATUS in that time answers 1 (R40, R41). -/
theorem test_cmd_accepted :
    after State.pending (step (port [.write 0x04#8 4 0x06500002#32])) = some (some 0x06500002#32)
    ∧ after State.statusWord (step (port [.write 0x04#8 4 0x06500002#32])) = some 1#32 := by decide
/-- A reset while a command executes (R133). -/
theorem test_reset_abandons :
    regAfter 5 (step { port [.reset] with pending := some 0x06500002#32, busy := true }) = some ⟨0, 0⟩
    ∧ after State.pending (step { port [.reset] with pending := some 0x06500002#32, busy := true }) = some none := by decide

/-! ### `withFetchWord` runs the word as the first command after reset -/

theorem test_withFetchWord_ldc :
    regAfter 5 (step (State.reset.withFetchWord 32 0x06500002)) = some ⟨0, 1⟩
    ∧ after State.statusWord (step (State.reset.withFetchWord 32 0x06500002)) = some 0#32 := by decide
theorem test_withFetchWord_runs (s : State) (w : Nat) (i : Instr) (h : decodeTableWord 32 w = some i)
    (hp : s.port = []) : step (s.withFetchWord 32 w) = exec i (s.withFetchWord 32 w) := by
  have hd : decode (tableWord 32 w) = .ok i := by
    unfold decodeTableWord at h
    split at h
    · rename_i j hj; rw [hj, Option.some.inj h]
    · cases h
  simp [step, State.resetNext, State.readsWhileBusy, State.statusReadNext, State.withFetchWord, hp, runSlot, hd]

/-! ### Witnesses: states and operands that meet the hypotheses of each statement, one for each clause that has its own -/

/-- `u` is executing, having been written to CMD, with the given inputs at the port. -/
def running (u : Word) (p : List PortInput) : State := { port p with pending := some u, busy := true, cmdlast := u }

/-- `running` with `G[1] = x` and `G[2] = y`. -/
def runningOn (u : Word) (x y : GReg) : State := { ops x y with pending := some u, busy := true, cmdlast := u }

theorem test_witness_EveryStepKeepsTheInvariant :
    (running 0x06500002#32 []).Inv ∧ (halted []).Inv
    ∧ (∃ t, step (running 0x06500002#32 []) = .next t) ∧ ∃ t, step (halted [.read 0x41#8 4]) = .next t := by
  refine ⟨⟨rfl, rfl, fun h => (by cases h), fun u h => ?_, fun _ => ⟨rfl, rfl⟩, fun h => (by cases h), by decide⟩,
    ⟨rfl, rfl, fun _ => rfl, fun u h => (by cases h), fun h => (by cases h), fun _ => ?_, by decide⟩, ⟨_, rfl⟩, ⟨_, rfl⟩⟩
  · cases h; decide
  · exact .inr (.inl ⟨rfl, 1, 2, 3, 0, by decide⟩)

theorem test_witness_DecodeOfEncodeIsTheCommand :
    Instr.wellFormed (.add 0 15 15) = true ∧ Instr.wellFormed (.div 15 0 15 0) = true
    ∧ Instr.wellFormed (.xgcd 0 15 14 15 0) = true := by decide

theorem test_witness_EncodeOfDecodeIsTheWord :
    decode 0x060F0002#32 = .error .unusedFieldNonzero ∧ decode 0x06F00002#32 = .ok (.ldc 15 .i)
    ∧ decode 0x22FED010#32 = .ok (.xgcd 15 14 13 0 1) := by decide

theorem test_witness_LegalWordsAreThoseOfR58 :
    (∃ r ∈ rows, r.selects 0x06F00002#32 = true ∧ decode 0x06F00002#32 = .ok (.ldc 15 .i))
    ∧ (∃ r ∈ rows, r.selects 0x200F0000#32 = true ∧ decode 0x200F0000#32 = .ok (.div 0 15 0 0))
    ∧ ∃ s : State, ∃ rest, s.pending = none ∧ s.fault = false ∧ s.port = .write 4#8 4 0x06F00003#32 :: rest
      ∧ ∀ r ∈ rows, r.selects 0x06F00003#32 = false := by
  refine ⟨⟨rows[5], by simp [rows], by decide, by decide⟩, ⟨rows[10], by simp [rows], by decide, by decide⟩,
    port [.write 4#8 4 0x06F00003#32], [], rfl, rfl, rfl, ?_⟩
  simp only [rows, List.forall_mem_cons]
  decide

theorem test_witness_StepRunsTheCommandInTheSlot :
    ∃ s : State, ∃ u i, s.pending = some u ∧ decode u = .ok i ∧ s.resetNext = false ∧ s.readsWhileBusy = false
      ∧ s.port = [.read 8#8 4] :=
  ⟨running 0x20340120#32 [.read 8#8 4], _, .div 3 4 1 2, rfl, by decide, by decide, by decide, rfl⟩

theorem test_witness_BusyHoldsAllButStatusReads :
    (∃ s : State, ∃ u rest, s.pending = some u ∧ s.port = .read 8#8 4 :: rest ∧ 0 < s.busyFor ∧ s.busy = true)
    ∧ (∃ s : State, ∃ u i off size rest, s.pending = some u ∧ decode u = .ok i ∧ s.port = .read off size :: rest
      ∧ ¬ (off = 8#8 ∧ size = 4) ∧ off = 8#8)
    ∧ ∃ s : State, ∃ u i off size v rest, s.pending = some u ∧ decode u = .ok i ∧ s.port = .write off size v :: rest ∧ off = 8#8 :=
  ⟨⟨{ running 0x06500002#32 [.read 8#8 4] with busyFor := 1 }, _, _, rfl, rfl, by decide, rfl⟩,
    ⟨running 0x06500002#32 [.read 8#8 2], _, .ldc 5 .i, _, _, _, rfl, by decide, rfl, by decide, rfl⟩,
    ⟨running 0x06500002#32 [.write 8#8 4 8#32], _, .ldc 5 .i, _, _, _, _, rfl, by decide, rfl, rfl⟩⟩

theorem test_witness_CommandWrittenIsCommandExecuted :
    ∃ s : State, ∃ i rest, Instr.wellFormed i = true ∧ s.pending = none ∧ s.fault = false ∧ s.port = .write 4#8 4 (encode i) :: rest
      ∧ State.resetNext { s with port := rest } = false ∧ State.statusReadNext { s with port := rest } = false :=
  ⟨port [.write 4#8 4 (encode (.add 3 1 2)), .read 0x40#8 4], .add 3 1 2, _, rfl, rfl, rfl, rfl, rfl, by decide⟩

theorem test_witness_CommandWriteFollowsR41 :
    (∃ s : State, ∃ u rest, s.pending = none ∧ s.port = .write 4#8 4 u :: rest ∧ s.fault = true)
    ∧ (∃ s : State, ∃ u rest, s.pending = none ∧ s.port = .write 4#8 4 u :: rest ∧ s.fault = false ∧ isLegal u = false)
    ∧ ∃ s : State, ∃ u rest, s.pending = none ∧ s.port = .write 4#8 4 u :: rest ∧ s.fault = false ∧ isLegal u = true :=
  ⟨⟨halted [.write 4#8 4 0#32], _, _, rfl, rfl, rfl⟩, ⟨port [.write 4#8 4 0#32], _, _, rfl, rfl, rfl, by decide⟩,
    ⟨port [.write 4#8 4 0x01000000#32], _, _, rfl, rfl, rfl, by decide⟩⟩

theorem test_witness_FaultHaltIgnoresCommands :
    (∃ s : State, ∃ u rest, s.pending = none ∧ s.fault = true ∧ s.port = .write 4#8 4 u :: rest)
    ∧ (∃ s : State, ∃ off rest, s.pending = none ∧ s.fault = true ∧ off.toNat % 4 = 0 ∧ s.port = .read off 4 :: rest)
    ∧ (∃ s : State, ∃ k : Reg, ∃ u rest, s.pending = none ∧ s.fault = true
      ∧ s.port = .write (BitVec.ofNat 8 (0x40 + 8 * k.val)) 4 u :: rest)
    ∧ (∃ s : State, ∃ k : Reg, ∃ u rest, s.pending = none ∧ s.fault = true
      ∧ s.port = .write (BitVec.ofNat 8 (0x44 + 8 * k.val)) 4 u :: rest)
    ∧ ∃ s : State, ∃ u : Word, ∃ rest, s.pending = none ∧ s.fault = true ∧ s.port = .write 8#8 4 u :: rest ∧ u[3] = true :=
  ⟨⟨halted [.write 4#8 4 0x01000000#32], _, _, rfl, rfl, rfl⟩, ⟨halted [.read 0xFC#8 4], _, _, rfl, rfl, by decide, rfl⟩,
    ⟨halted [.write 0x40#8 4 7#32], 0, _, _, rfl, rfl, rfl⟩, ⟨halted [.write 0xBC#8 4 7#32], 15, _, _, rfl, rfl, rfl⟩,
    ⟨halted [.write 8#8 4 8#32], 8#32, _, rfl, rfl, rfl, by decide⟩⟩

/-- The hypotheses of the clauses of R39 at the ends of their ranges; `0x3C` and `0x40`, `0xBC` and `0xC0` fall under one each. -/
theorem test_witness_WindowReadsFollowR39 :
    (∀ off ∈ [0x00#8, 0x04#8, 0x08#8, 0x0C#8, 0x10#8, 0x14#8, 0x18#8, 0x3C#8, 0x40#8, 0x44#8, 0xB8#8, 0xBC#8, 0xC0#8, 0xFC#8],
      off.toNat % 4 = 0 ∧ (port [.read off 4]).pending = none ∧ (port [.read off 4]).port = .read off 4 :: [])
    ∧ (0x40#8).toNat = 0x40 + 8 * (0 : Reg).val ∧ (0xB8#8).toNat = 0x40 + 8 * (15 : Reg).val
    ∧ (0x44#8).toNat = 0x44 + 8 * (0 : Reg).val ∧ (0xBC#8).toNat = 0x44 + 8 * (15 : Reg).val := by decide

theorem test_witness_GaussianRegisterWritesFollowR27 :
    (∃ s : State, ∃ k : Reg, ∃ u rest, s.pending = none ∧ s.port = .write (BitVec.ofNat 8 (0x40 + 8 * k.val)) 4 u :: rest ∧ k = 15)
    ∧ ∃ s : State, ∃ k : Reg, ∃ u rest, s.pending = none ∧ s.port = .write (BitVec.ofNat 8 (0x44 + 8 * k.val)) 4 u :: rest ∧ k = 0 :=
  ⟨⟨port [.write 0xB8#8 4 m], 15, _, _, rfl, rfl, rfl⟩, ⟨port [.write 0x44#8 4 m], 0, _, _, rfl, rfl, rfl⟩⟩

theorem test_witness_StatusRegisterFollowsR19 : ∃ s : State, ∃ u rest, s.pending = none ∧ s.port = .write 8#8 4 u :: rest :=
  ⟨halted [.write 8#8 4 0xC#32], _, _, rfl, rfl⟩

theorem test_witness_OtherOffsetsFollowR28 :
    (∀ off ∈ [0x00#8, 0x0C#8, 0x10#8, 0x14#8, 0x18#8, 0x3C#8, 0xC0#8, 0xFC#8], off.toNat % 4 = 0
      ∧ (off = 0x00#8 ∨ off = 0x0C#8 ∨ off = 0x10#8 ∨ off = 0x14#8 ∨ (0x18 ≤ off.toNat ∧ off.toNat < 0x40) ∨ 0xC0 ≤ off.toNat)
      ∧ (port [.write off 4 5#32]).port = .write off 4 5#32 :: [])
    ∧ ∀ off ∈ [0x18#8, 0x3C#8, 0xC0#8, 0xFC#8], off.toNat % 4 = 0
      ∧ ((0x18 ≤ off.toNat ∧ off.toNat < 0x40) ∨ 0xC0 ≤ off.toNat) ∧ (port [.read off 4]).port = .read off 4 :: [] := by decide

theorem test_witness_MalformedAccessesFollowR34 :
    (∃ s : State, ∃ off size rest, s.pending = none ∧ ¬ (size = 4 ∧ off.toNat % 4 = 0) ∧ s.port = .read off size :: rest ∧ size = 4)
    ∧ (∃ s : State, ∃ off size rest, s.pending = none ∧ ¬ (size = 4 ∧ off.toNat % 4 = 0) ∧ s.port = .read off size :: rest ∧ off = 0#8)
    ∧ ∃ s : State, ∃ off size u rest, s.pending = none ∧ ¬ (size = 4 ∧ off.toNat % 4 = 0) ∧ s.port = .write off size u :: rest ∧ size = 8 :=
  ⟨⟨port [.read 0xFF#8 4], _, _, _, rfl, by decide, rfl, rfl⟩, ⟨halted [.read 0#8 1], _, _, _, rfl, by decide, rfl, rfl⟩,
    ⟨halted [.write 0x40#8 8 m], _, _, _, _, rfl, by decide, rfl, rfl⟩⟩

theorem test_witness_IdReadsTheConstant :
    ∃ s : State, ∃ rest, s.Inv ∧ s.pending = none ∧ s.port = .read 0x00#8 4 :: .write 0x00#8 4 5#32 :: rest :=
  ⟨halted [.read 0x00#8 4, .write 0x00#8 4 5#32], [],
    ⟨rfl, rfl, fun _ => rfl, fun u h => (by cases h), fun h => (by cases h),
      fun _ => .inr (.inl ⟨rfl, 1, 2, 3, 0, by decide⟩), by decide⟩, rfl, rfl⟩

theorem test_witness_ResetAbandonsTheCommand : ∃ s : State, ∃ rest, s.port = .reset :: rest ∧ s.pending = some 0x06500002#32 :=
  ⟨running 0x06500002#32 [.reset], _, rfl, rfl⟩

theorem test_witness_IdleBlockLosesNothing : (halted []).pending = none ∧ (halted []).port = [] := by decide

theorem test_witness_HostAddressesReachTheirOffsets : ∃ a, a < Config.giuBase ∨ Config.giuBase + 0x100 ≤ a :=
  ⟨_, .inr (Nat.le_refl _)⟩

theorem test_witness_WindowBytesAreLittleEndian : (0xFC#8 : Offset).toNat % 4 = 0 := by decide

theorem test_witness_RaisingAFaultFollowsR117 : State.reset.fault = false ∧ (halted []).fault = true := by decide

theorem test_witness_CommandFaultsArePrecise :
    ∃ i, ∃ s t : State, s.fault = false ∧ exec i s = .next t ∧ t.fault = true := ⟨.div 1 2 3 0, State.reset, _, rfl, rfl, rfl⟩

theorem test_witness_CommandsFaultOnlyAsR112Lists :
    (∃ i, ∃ s t : State, s.fault = false ∧ exec i s = .next t ∧ canFault i = false)
    ∧ (∃ s : State, ∃ t rd rd2 rs1 rs2, s.fault = false ∧ exec (.div rd rd2 rs1 rs2) s = .next t ∧ t.fault = true)
    ∧ ∃ s : State, ∃ t rd rd2 rd3 rs1 rs2, s.fault = false ∧ exec (.xgcd rd rd2 rd3 rs1 rs2) s = .next t ∧ t.fault = true := by
  refine ⟨⟨.add 3 1 2, State.reset, _, rfl, rfl, rfl⟩, ⟨State.reset, _, 1, 2, 3, 0, rfl, rfl, rfl⟩,
    ⟨ops ⟨m, 0x80000001#32⟩ ⟨1#32, 1#32⟩, (ops ⟨m, 0x80000001#32⟩ ⟨1#32, 1#32⟩).raiseCmd .range (.xgcd 3 4 5 1 2),
      3, 4, 5, 1, 2, rfl, ?_, rfl⟩⟩
  refine if_neg ?_
  generalize Config.tieRule = t; cases t <;> decide

/-- GCD raises RANGE under `HALF_AWAY_FROM_ZERO` only (R107), so this one witness has the rule as a hypothesis. -/
theorem test_witness_gcd_range (h : Config.tieRule = .halfAwayFromZero) :
    ∃ s : State, ∃ t, s.fault = false ∧ exec (.gcd 3 1 2) s = .next t ∧ t.fault = true := by
  refine ⟨ops ⟨m, 0#32⟩ ⟨m, m⟩, (ops ⟨m, 0#32⟩ ⟨m, m⟩).raiseCmd .range (.gcd 3 1 2), rfl, ?_, rfl⟩
  refine if_neg ?_
  rw [h]; decide

theorem test_witness_EveryCommandKeepsItsFrame :
    ∃ s : State, ∃ t, exec (.add 3 1 2) s = .next t ∧ (4 : Reg) ∉ destinations (.add 3 1 2) ∧ s.wrap = true
      ∧ Instr.mnemonic (.add 3 1 2) ≠ "NORM" ∧ writesPred (.add 3 1 2) = false ∧ canWrap (.norm 1) = false :=
  ⟨{ State.reset with wrap := true }, _, rfl, by decide, rfl, by decide, rfl, rfl⟩

/-- Steps in which PRED changes, WRAP is set, WRAP is cleared, FAULT is cleared, and FAULT is set in each of the three ways, with the
invariant. -/
theorem test_witness_StatusBitsHaveOnlyTheWritersOfR29 :
    (∃ s : State, ∃ t, s.Inv ∧ step s = .next t ∧ s.resetNext = false ∧ t.pred ≠ s.pred)
    ∧ (∃ s : State, ∃ t, s.Inv ∧ step s = .next t ∧ s.resetNext = false ∧ s.wrap = false ∧ t.wrap = true)
    ∧ (∃ s : State, ∃ t, s.Inv ∧ step s = .next t ∧ s.resetNext = false ∧ s.wrap = true ∧ t.wrap = false)
    ∧ (∃ s : State, ∃ t, s.Inv ∧ step s = .next t ∧ s.resetNext = false ∧ s.fault = true ∧ t.fault = false)
    ∧ (∃ s : State, ∃ t, s.Inv ∧ step s = .next t ∧ s.resetNext = false ∧ s.fault = false ∧ t.fault = true ∧ t.fcode = 1#4)
    ∧ (∃ s : State, ∃ t, s.Inv ∧ step s = .next t ∧ s.resetNext = false ∧ s.fault = false ∧ t.fault = true ∧ t.fcode = 4#4)
    ∧ ∃ s : State, ∃ t, s.Inv ∧ step s = .next t ∧ s.resetNext = false ∧ s.fault = false ∧ t.fault = true ∧ t.fcode = 2#4 := by
  refine ⟨⟨running 0x10000110#32 [], _, ⟨rfl, rfl, fun h => (by cases h), fun u h => ?_, fun _ => ⟨rfl, rfl⟩,
      fun h => (by cases h), by decide⟩, rfl, rfl, by decide⟩,
    ⟨runningOn 0x01300120#32 ⟨mx, 0#32⟩ ⟨1#32, 0#32⟩, _, ⟨rfl, rfl, fun h => (by cases h), fun u h => ?_,
      fun _ => ⟨rfl, rfl⟩, fun h => (by cases h), by decide⟩, rfl, rfl, rfl, by decide⟩,
    ⟨{ port [.write 8#8 4 4#32] with wrap := true }, _, ⟨rfl, rfl, fun _ => rfl, fun u h => (by cases h),
      fun _ => ⟨rfl, rfl⟩, fun h => (by cases h), by decide⟩, rfl, rfl, rfl, by decide⟩,
    ⟨halted [.write 8#8 4 8#32], _, ⟨rfl, rfl, fun _ => rfl, fun u h => (by cases h), fun h => (by cases h),
      fun _ => .inr (.inl ⟨rfl, 1, 2, 3, 0, by decide⟩), by decide⟩, rfl, rfl, rfl, by decide⟩,
    ⟨port [.write 4#8 4 0#32], _, ⟨rfl, rfl, fun _ => rfl, fun u h => (by cases h), fun _ => ⟨rfl, rfl⟩,
      fun h => (by cases h), by decide⟩, rfl, rfl, rfl, by decide, by decide⟩,
    ⟨port [.write 0x40#8 2 0#32], _, ⟨rfl, rfl, fun _ => rfl, fun u h => (by cases h), fun _ => ⟨rfl, rfl⟩,
      fun h => (by cases h), by decide⟩, rfl, rfl, rfl, by decide, by decide⟩,
    ⟨running 0x20120300#32 [], _, ⟨rfl, rfl, fun h => (by cases h), fun u h => ?_, fun _ => ⟨rfl, rfl⟩,
      fun h => (by cases h), by decide⟩, rfl, rfl, rfl, rfl, rfl⟩⟩
  all_goals cases h; decide

theorem test_witness_OnlyTheNormCommandWritesNorm :
    ∃ s : State, ∃ t, step s = .next t ∧ s.resetNext = false ∧ t.norm ≠ s.norm :=
  ⟨runningOn 0x05000100#32 ⟨3#32, 4#32⟩ ⟨0#32, 0#32⟩, _, rfl, rfl, by decide⟩

theorem test_witness_WrappingIsTheBalancedResidue :
    ∃ w v : Int, fits32 w ∧ w % 2 ^ 32 = v % 2 ^ 32 ∧ ¬ fits32 v := ⟨-2147483648, 2147483648, by decide⟩

theorem test_witness_MulWritesTheWrappedProduct :
    (ops ⟨m, m⟩ ⟨m, m⟩).readG 1 = ⟨-2147483648, -2147483648⟩ ∧ (ops ⟨m, m⟩ ⟨m, m⟩).readG 2 = ⟨-2147483648, -2147483648⟩ := by
  decide

theorem test_witness_LdcLoadsTheConstant : 3 ≤ (3#4).toNat ∧ 3 ≤ (15#4).toNat := by decide

theorem test_witness_NormLawsHoldWhereMulDoesNotWrap :
    ∃ s : State, ∃ t, s.wrap = false ∧ exec (.mul 3 1 2) s = .next t ∧ t.wrap = false :=
  ⟨ops ⟨1#32, 2#32⟩ ⟨3#32, 4#32⟩, _, rfl, rfl, by decide⟩

theorem test_witness_AssociatesFormAnEquivalence :
    predIsAssoc (GReg.val ⟨2#32, 0xFFFFFFFF#32⟩) (GReg.val ⟨1#32, 2#32⟩) = true
    ∧ predIsAssoc (GReg.val ⟨1#32, 2#32⟩) (GReg.val ⟨0xFFFFFFFF#32, 0xFFFFFFFE#32⟩) = true := by decide

/-- Not a tie (`13/5`), and the two signs of a tie (`5/2`, `-5/2`). -/
theorem test_witness_RoundingIsToNearestWithTheTieRule :
    (-5 < 2 * (13 - 3 * 5) ∧ 2 * (13 - 3 * 5) < (5 : Int)) ∧ 2 * (5 - 2 * 2) = (2 : Int) ∧ 2 * (-5 - -3 * 2) = (2 : Int) := by decide

theorem test_witness_DivisionFollowsR91_and_RemainderNormIsAtMostHalf :
    (⟨-2147483648, -2147483648⟩ : Gauss) ≠ ⟨0, 0⟩ := by decide

theorem test_witness_DivFollowsR92 :
    (∃ s : State, s.readG 2 = ⟨0, 0⟩)
    ∧ (∃ s : State, s.readG 2 ≠ ⟨0, 0⟩ ∧ ¬ ((quotG Config.tieRule (s.readG 1) (s.readG 2)).fits
      ∧ (remG Config.tieRule (s.readG 1) (s.readG 2)).fits))
    ∧ ∃ s : State, s.readG 2 ≠ ⟨0, 0⟩ ∧ (quotG Config.tieRule (s.readG 1) (s.readG 2)).fits
      ∧ (remG Config.tieRule (s.readG 1) (s.readG 2)).fits := by
  generalize Config.tieRule = t
  refine ⟨⟨State.reset, by decide⟩, ⟨ops ⟨m, 0#32⟩ ⟨0xFFFFFFFF#32, 0#32⟩, ?_⟩,
    ⟨ops ⟨13#32, 11#32⟩ ⟨3#32, 0xFFFFFFFC#32⟩, ?_⟩⟩ <;> cases t <;> decide

/-- What DIV, GCD and XGCD write of `13+11i` and `3-4i`: steps with no fault, for the statements about written results. -/
theorem test_witness_written_results :
    let s := ops ⟨13#32, 11#32⟩ ⟨3#32, 0xFFFFFFFC#32⟩
    (∃ t, exec (.div 3 4 1 2) s = .next t ∧ s.fault = false ∧ t.fault = false)
    ∧ (∃ t, exec (.gcd 9 1 2) s = .next t ∧ s.fault = false ∧ t.fault = false)
    ∧ ∃ t, exec (.xgcd 3 4 5 1 2) s = .next t ∧ s.fault = false ∧ t.fault = false := by
  intro s
  have hd : exec (.div 3 4 1 2) s = .next ((s.putG 3 (quotG Config.tieRule (s.readG 1) (s.readG 2))).putG 4
      (remG Config.tieRule (s.readG 1) (s.readG 2))).finish := by
    refine if_pos ?_
    generalize Config.tieRule = t; cases t <;> decide
  refine ⟨⟨_, hd, rfl, rfl⟩, ⟨_, if_pos ?_, rfl, rfl⟩, ⟨_, if_pos ?_, rfl, rfl⟩⟩ <;>
  generalize Config.tieRule = t <;> cases t <;> decide

theorem test_witness_QuotientDependsOnTheRatioOnly :
    (⟨3, -4⟩ : Gauss) ≠ ⟨0, 0⟩ ∧ (⟨0, -1⟩ : Gauss).norm = 1
    ∧ (⟨13, 11⟩ : Gauss).mul ⟨6, -8⟩ = (⟨26, 22⟩ : Gauss).mul ⟨3, -4⟩ := by decide

theorem test_witness_RemainderOutOfRangeOnlyAtOneDivisor :
    ∃ n d : Gauss, n.fits ∧ d.fits ∧ d ≠ ⟨0, 0⟩ ∧ ¬ (remG .halfAwayFromZero n d).fits :=
  ⟨⟨-2147483648, 0⟩, ⟨-2147483648, -2147483648⟩, by decide⟩

theorem test_witness_LoopsEndWithin64Iterations :
    (⟨-2147483648, -2147483648⟩ : Gauss).fits ∧ (⟨2147483647, 2147483647⟩ : Gauss).fits := by decide

/-- The loops of the operands `(5,0)` and `(0,0)`: no iteration, and results that fit. -/
theorem test_witness_loops_end_at_once :
    GcdRun Config.tieRule 0 ((ops ⟨5#32, 0#32⟩ ⟨0#32, 0#32⟩).readG 1) ((ops ⟨5#32, 0#32⟩ ⟨0#32, 0#32⟩).readG 2) ⟨5, 0⟩
    ∧ (⟨5, 0⟩ : Gauss).fits
    ∧ XgcdRun Config.tieRule 0 ⟨(ops ⟨5#32, 0#32⟩ ⟨0#32, 0#32⟩).readG 1, (ops ⟨5#32, 0#32⟩ ⟨0#32, 0#32⟩).readG 2, ⟨1, 0⟩, ⟨0, 0⟩,
      ⟨0, 0⟩, ⟨1, 0⟩⟩ ⟨⟨5, 0⟩, ⟨0, 0⟩, ⟨1, 0⟩, ⟨0, 0⟩, ⟨0, 0⟩, ⟨1, 0⟩⟩
    ∧ (⟨1, 0⟩ : Gauss).fits ∧ (⟨0, 0⟩ : Gauss).fits :=
  ⟨.done _, by decide, .done _ rfl, by decide, by decide⟩

/-- The loops of `13+11i` and `3-4i`, two iterations each, under either tie rule. The unwritten last `s` is `(1,2)` by R102; the trace
in 2.5 prints `(3,-4)` for it (log entry 8). -/
theorem test_witness_loops_of_two_iterations (t : TieRule) :
    GcdRun t 2 ⟨13, 11⟩ ⟨3, -4⟩ ⟨1, 2⟩
    ∧ XgcdRun t 2 ⟨⟨13, 11⟩, ⟨3, -4⟩, ⟨1, 0⟩, ⟨0, 0⟩, ⟨0, 0⟩, ⟨1, 0⟩⟩
      ⟨⟨1, 2⟩, ⟨0, 0⟩, ⟨1, 0⟩, ⟨1, 2⟩, ⟨0, -3⟩, ⟨7, -3⟩⟩ := by
  refine ⟨.turn 1 _ _ _ (by decide) (.turn 0 _ _ _ (by cases t <;> decide) ?_),
    .turn 1 _ _ (by decide) (.turn 0 _ _ (by cases t <;> decide) ?_)⟩
  · have h : remG t ⟨3, -4⟩ (remG t ⟨13, 11⟩ ⟨3, -4⟩) = Gauss.zero ∧ remG t ⟨13, 11⟩ ⟨3, -4⟩ = ⟨1, 2⟩ := by cases t <;> decide
    rw [h.1, h.2]; exact .done _
  · have h : xgcdStep t (xgcdStep t ⟨⟨13, 11⟩, ⟨3, -4⟩, ⟨1, 0⟩, ⟨0, 0⟩, ⟨0, 0⟩, ⟨1, 0⟩⟩)
        = ⟨⟨1, 2⟩, ⟨0, 0⟩, ⟨1, 0⟩, ⟨1, 2⟩, ⟨0, -3⟩, ⟨7, -3⟩⟩ := by cases t <;> decide
    exact h ▸ .done _ rfl

/-- XGCD's RANGE clause, under either tie rule. -/
theorem test_witness_xgcd_results_out_of_range (t : TieRule) :
    ∃ n w, XgcdRun t n ⟨⟨-2147483648, -2147483647⟩, ⟨1, 1⟩, ⟨1, 0⟩, ⟨0, 0⟩, ⟨0, 0⟩, ⟨1, 0⟩⟩ w
      ∧ ¬ (w.oldR.fits ∧ w.oldS.fits ∧ w.oldT.fits) := by
  cases t
  · exact ⟨2, _, .turn 1 _ _ (by decide) (.turn 0 _ _ (by decide) (.done _ rfl)), by decide⟩
  · exact ⟨2, _, .turn 1 _ _ (by decide) (.turn 0 _ _ (by decide) (.done _ rfl)), by decide⟩

/-- GCD's RANGE clause: there is such a run under `HALF_AWAY_FROM_ZERO`, and only there (R107). -/
theorem test_witness_gcd_result_out_of_range :
    ∃ n g, GcdRun .halfAwayFromZero n ⟨-2147483648, 0⟩ ⟨-2147483648, -2147483648⟩ g ∧ ¬ g.fits := by
  refine ⟨2, ⟨2147483648, 0⟩, .turn 1 _ _ _ (by decide) (.turn 0 _ _ _ (by decide) ?_), by decide⟩
  have h : remG .halfAwayFromZero ⟨-2147483648, -2147483648⟩
      (remG .halfAwayFromZero ⟨-2147483648, 0⟩ ⟨-2147483648, -2147483648⟩) = Gauss.zero
    ∧ remG .halfAwayFromZero ⟨-2147483648, 0⟩ ⟨-2147483648, -2147483648⟩ = ⟨2147483648, 0⟩ := by decide
  rw [h.1, h.2]; exact .done _

/-- Coprime operands: every common divisor of `(1,0)` and `(0,0)` is a unit. -/
theorem test_witness_GcdIsAGreatestCommonDivisor :
    (∀ c : Gauss, c.Divides ⟨1, 0⟩ → c.Divides ⟨0, 0⟩ → c.norm = 1)
    ∧ ∃ t, exec (.gcd 3 1 2) (ops ⟨1#32, 0#32⟩ ⟨0#32, 0#32⟩) = .next t ∧ t.fault = false := by
  refine ⟨?_, _, rfl, rfl⟩
  rintro c ⟨k, hk⟩ -
  have h : c.norm * k.norm = 1 := by
    have h1 : (c.mul k).norm = c.norm * k.norm := by simp only [Gauss.norm, Gauss.mul]; ring
    rw [← h1, ← hk]; decide
  have hc : 0 ≤ c.norm := by simp only [Gauss.norm]; nlinarith [sq_nonneg c.re, sq_nonneg c.im]
  exact Int.eq_one_of_mul_eq_one_right hc h

theorem test_witness_BezoutIdentityHolds :
    xgcdInit ⟨13, 11⟩ ⟨3, -4⟩ = (xgcdStep .halfToEven)^[0] (xgcdInit ⟨13, 11⟩ ⟨3, -4⟩) := rfl

end Sys2Proof.Tests
end

section
/-! Proofs of the statements of 00_scope.md: `wrap32` as the balanced residue (R6) and the frame of every command (R10). -/

namespace Sys2Proof.Machine

open Sys2Proof

/-! ### `wrap32` (R6) -/

/-- Integers congruent modulo `2^32` wrap to the same word. -/
theorem wrap32_congr {v w : Int} (h : w % 2 ^ 32 = v % 2 ^ 32) : wrap32 w = wrap32 v := by
  apply BitVec.eq_of_toInt_eq
  rw [toInt_wrap32, toInt_wrap32]; omega

/-- Settles O32: a representable integer is the value of the word it wraps to, and congruent integers wrap to one word. -/
theorem wrappingIsTheBalancedResidue : Obligations.WrappingIsTheBalancedResidue := by
  intro v
  refine ⟨toInt_wrap32 v, fits32_toInt _, fun w hw hmod => ?_⟩
  calc w = (wrap32 w).toInt := (toInt_wrap32_of_fits hw).symm
    _ = (wrap32 v).toInt := by rw [wrap32_congr hmod]

/-! ### The frame of every command (R10)

A command's next state is built from the old one by the named operations. Each operation keeps the frame of every command that
may use it, so the frame of a command follows its meaning operation by operation. -/

/-- What command `i`, started in `s`, has left alone in `t`: what R13, R15, R16 and R21 let it write is the only thing that may
differ. `Completes` says the rest. -/
structure KeepsFrame (i : Instr) (s t : State) : Prop where
  registers : ∀ k, k ∉ destinations i → t.g[k] = s.g[k]
  norm : i.mnemonic ≠ "NORM" → t.norm = s.norm
  pred : writesPred i = false → t.pred = s.pred
  wrap : canWrap i = false → t.wrap = s.wrap
  wrapSticky : s.wrap = true → t.wrap = true

namespace KeepsFrame

variable {i : Instr} {s t : State}

theorem refl (i : Instr) (s : State) : KeepsFrame i s s :=
  ⟨fun _ _ => rfl, fun _ => rfl, fun _ => rfl, fun _ => rfl, id⟩

/-- Writing a destination leaves every register that is no destination. -/
theorem set_destination {k j : Reg} (h : KeepsFrame i s t) (x : GReg) (hk : k ∈ destinations i)
    (hj : j ∉ destinations i) : (t.g.set k x)[j] = s.g[j] :=
  (g_set_other _ _ _ _ (ne_of_mem_of_not_mem hk hj).symm).trans (h.registers j hj)

theorem putG {k : Reg} (h : KeepsFrame i s t) (v : Gauss) (hk : k ∈ destinations i) : KeepsFrame i s (t.putG k v) :=
  { h with registers := fun _ hj => h.set_destination _ hk hj }

theorem writeG {k : Reg} (h : KeepsFrame i s t) (v : Gauss) (hk : k ∈ destinations i) (hw : canWrap i = true) :
    KeepsFrame i s (t.writeG k v) :=
  { h with
    registers := fun _ hj => h.set_destination _ hk hj
    wrap := fun hn => by simp [hw] at hn
    wrapSticky := fun hs => by rw [State.writeG_wrap, h.wrapSticky hs, wrapFlag_sticky] }

theorem writeNorm (h : KeepsFrame i s t) (n : Int) (hi : i.mnemonic = "NORM") : KeepsFrame i s (t.writeNorm n) :=
  { h with norm := fun hn => absurd hi hn }

theorem writePred (h : KeepsFrame i s t) (b : Bool) (hi : writesPred i = true) : KeepsFrame i s (t.writePred b) :=
  { h with pred := fun hn => by simp [hi] at hn }

theorem finish (h : KeepsFrame i s t) : KeepsFrame i s t.finish := { h with }

theorem raiseCmd (h : KeepsFrame i s t) (c : FaultCode) (j : Instr) : KeepsFrame i s (t.raiseCmd c j) := { h with }

end KeepsFrame

/-- The next state of a command is one it completes in. -/
theorem completes_of_exec {i : Instr} {s t : State} (h : exec i s = .next t) : Completes s t := by
  obtain ⟨t', h', hc⟩ := exec_completes i s
  cases h'.symm.trans h
  exact hc

/-- The next state of a command keeps the command's frame (R10). -/
theorem keepsFrame_of_exec {i : Instr} {s t : State} (h : exec i s = .next t) : KeepsFrame i s t := by
  have hs : KeepsFrame i s s := .refl i s
  cases i with
  | add | sub | mul | conj => cases h; exact (hs.writeG _ (.head _) rfl).finish
  | norm => cases h; exact (hs.writeNorm _ rfl).finish
  | ldc => cases h; exact (hs.putG _ (.head _)).finish
  | eq | iszero | isunit | isassoc => cases h; exact (hs.writePred _ rfl).finish
  | div rd rd2 rs1 rs2 =>
    obtain ⟨-, hd⟩ | ⟨-, -, hd⟩ | ⟨-, -, -, hd⟩ := execDiv_cases rd rd2 rs1 rs2 s <;> cases hd.symm.trans h
    · exact hs.raiseCmd _ _
    · exact hs.raiseCmd _ _
    · exact ((hs.putG _ (by simp [destinations])).putG _ (by simp [destinations])).finish
  | gcd rd rs1 rs2 =>
    obtain ⟨-, hg⟩ | ⟨-, hg⟩ := execGcd_cases rd rs1 rs2 s <;> cases hg.symm.trans h
    · exact (hs.putG _ (.head _)).finish
    · exact hs.raiseCmd _ _
  | xgcd rd rd2 rd3 rs1 rs2 =>
    obtain ⟨-, hx⟩ | ⟨-, hx⟩ := execXgcd_cases rd rd2 rd3 rs1 rs2 s <;> cases hx.symm.trans h
    · exact (((hs.putG _ (by simp [destinations])).putG _ (by simp [destinations])).putG _ (by simp [destinations])).finish
    · exact hs.raiseCmd _ _

/-- Settles O29: `keepsFrame_of_exec` for what a command may write, `completes_of_exec` for what none touches. -/
theorem everyCommandKeepsItsFrame : Obligations.EveryCommandKeepsItsFrame := by
  intro i s t h
  have hf := keepsFrame_of_exec h
  have hc := completes_of_exec h
  exact ⟨hf.registers, hf.norm, hf.pred, hf.wrap, hf.wrapSticky, hc.cmdlast, hc.id, hc.slotEmpty, hc.notBusy,
    hc.port, hc.rdata, hc.seq, hc.noLatency⟩

end Sys2Proof.Machine
end

section
/-! Proofs of the statements of 10_state.md: the step that runs the command in the slot, the accesses of the register window that
reach plain registers (R19, R22, R27, R28), and which steps write NORM (R15) and the bits of STATUS (R29). -/

namespace Sys2Proof.Machine

open Sys2Proof

/-! ### The word in the slot -/

/-- Settles O11: neither a reset nor a STATUS read comes first, so the step is `runSlot`, which decodes and executes. -/
theorem stepRunsTheCommandInTheSlot : Obligations.StepRunsTheCommandInTheSlot := by
  intro s u i hp hd hr hb
  have hstep : step s = runSlot u s := by simp [step, hr, hp, hb]
  rw [hstep, runSlot, hd]

/-! ### Well-formed accesses of an idle block -/

/-- A well-formed read delivers the word at its offset (R39). -/
theorem step_read_idle {s : State} {off : Offset} {rest : List PortInput} (hp : s.pending = none)
    (hoff : off.toNat % 4 = 0) (h : s.port = .read off 4 :: rest) :
    step s = .next { s with port := rest, rdata := s.readWord off } := by
  have hw : wellFormedAccess off 4 = true := (wellFormedAccess_iff _ _).2 ⟨rfl, hoff⟩
  rw [step_idle hp, State.serve, h]
  simp only [State.doRead, hw, if_true]
  unfold State.readWord
  cases winReg off <;> rfl

/-- A well-formed write acts on the register at its offset (R38). -/
theorem step_write_idle {s : State} {off : Offset} {u : Word} {rest : List PortInput} (hp : s.pending = none)
    (hoff : off.toNat % 4 = 0) (h : s.port = .write off 4 u :: rest) :
    step s = .next ({ s with port := rest }.writeReg u (winReg off)) := by
  have hw : wellFormedAccess off 4 = true := (wellFormedAccess_iff _ _).2 ⟨rfl, hoff⟩
  rw [step_idle hp, State.serve, h]
  simp only [State.doWrite, hw, if_true]

/-! ### The offsets of the register map (R26) -/

/-- CMD's only aligned offset is 4. -/
theorem winReg_eq_cmd_iff {off : Offset} (hoff : off.toNat % 4 = 0) : winReg off = .cmd ↔ off = 4#8 := by
  revert off; decide

/-- STATUS' only aligned offset is 8. -/
theorem winReg_eq_status_iff {off : Offset} (hoff : off.toNat % 4 = 0) : winReg off = .status ↔ off = 8#8 := by
  revert off; decide

/-- The two reserved ranges. -/
theorem winReg_reserved {off : Offset} (h : (0x18 ≤ off.toNat ∧ off.toNat < 0x40) ∨ 0xC0 ≤ off.toNat) :
    winReg off = .reserved := by
  revert off; decide

theorem gRe_offset_aligned (k : Reg) : (BitVec.ofNat 8 (0x40 + 8 * k.val)).toNat % 4 = 0 := by
  revert k; decide

theorem gIm_offset_aligned (k : Reg) : (BitVec.ofNat 8 (0x44 + 8 * k.val)).toNat % 4 = 0 := by
  revert k; decide

/-! ### G_RE and G_IM (R27) -/

@[simp] theorem State.readWord_gRe (s : State) (k : Reg) :
    s.readWord (BitVec.ofNat 8 (0x40 + 8 * k.val)) = (s.g[k]).re := by
  rw [State.readWord, winReg_gRe, State.readReg]

@[simp] theorem State.readWord_gIm (s : State) (k : Reg) :
    s.readWord (BitVec.ofNat 8 (0x44 + 8 * k.val)) = (s.g[k]).im := by
  rw [State.readWord, winReg_gIm, State.readReg]

/-- The signed value of a word is its `wrap32` (R6, R27). -/
theorem toInt_eq_balanced (u : Word) : u.toInt = ((u.toNat : Int) + 2 ^ 31) % 2 ^ 32 - 2 ^ 31 := by
  rw [BitVec.toInt_eq_toNat_bmod, Int.bmod_def]; omega

/-- Replacing the contents of `G[k]` sets its value. -/
theorem State.readG_set_same (s : State) (k : Reg) (x : GReg) (p : List PortInput) :
    State.readG { s with port := p, g := s.g.set k x } k = x.val := by
  simp [State.readG]

/-- Replacing the contents of `G[k]` leaves every other register. -/
theorem State.readG_set_other (s : State) {k j : Reg} (x : GReg) (p : List PortInput) (h : j ≠ k) :
    State.readG { s with port := p, g := s.g.set k x } j = s.readG j :=
  congrArg GReg.val (g_set_other s.g k j x h)

/-- Settles O17: the write replaces one component of `G[k]`, read back as a value and as a word. -/
theorem gaussianRegisterWritesFollowR27 : Obligations.GaussianRegisterWritesFollowR27 := by
  intro s k u rest hp
  refine ⟨fun h => ⟨_, ?_, rfl, ?_, fun j hj => State.readG_set_other s _ _ hj, ?_⟩,
    fun h => ⟨_, ?_, rfl, ?_, fun j hj => State.readG_set_other s _ _ hj, ?_⟩, ?_, ?_⟩
  · rw [step_write_idle hp (gRe_offset_aligned k) h, winReg_gRe]; rfl
  · rw [State.readG_set_same, ← toInt_eq_balanced]; rfl
  · simp
  · rw [step_write_idle hp (gIm_offset_aligned k) h, winReg_gIm]; rfl
  · rw [State.readG_set_same, ← toInt_eq_balanced]; rfl
  · simp
  · rw [State.readWord_gRe]; rfl
  · rw [State.readWord_gIm]; rfl

/-! ### STATUS (R19) -/

/-- FCODE stands in bits 7:4 of the STATUS word, and the bits above are 0. -/
theorem State.statusWord_upper (s : State) :
    s.statusWord.extractLsb' 4 4 = s.fcode ∧ s.statusWord.extractLsb' 8 24 = 0#24 := by
  have := s.busy.toNat_le; have := s.pred.toNat_le; have := s.wrap.toNat_le; have := s.fault.toNat_le
  simp only [← BitVec.toNat_inj, BitVec.extractLsb'_toNat, Nat.shiftRight_eq_div_pow, State.statusWord_toNat,
    BitVec.toNat_ofNat]
  omega

/-- The W1C write as one update of the state. -/
theorem State.writeStatus_eq (u : Word) (s : State) : s.writeStatus u = { s with
    wrap := if u.getLsbD 2 then false else s.wrap
    fault := if u.getLsbD 3 then false else s.fault
    fcode := if u.getLsbD 3 then 0#4 else s.fcode
    finfo := if u.getLsbD 3 then 0#32 else s.finfo } := by
  cases h2 : u[2] <;> cases h3 : u[3] <;> simp [State.writeStatus, State.clearWrap, State.clearFault, h2, h3]

/-- Settles O18: `statusWord_bits` and its companions for the word, `writeStatus_eq` for the write. -/
theorem statusRegisterFollowsR19 : Obligations.StatusRegisterFollowsR19 := by
  refine ⟨fun s => ?_, by decide, fun s u rest hp h => ?_⟩
  · obtain ⟨hbusy, hpred, hwrap, hfault⟩ := s.statusWord_bits
    obtain ⟨hfcode, hhigh⟩ := s.statusWord_upper
    exact ⟨hbusy, hpred, hwrap, hfault, hfcode, hhigh, rfl⟩
  · rw [step_write_idle hp (by decide) h, (winReg_eq_status_iff (by decide)).2 rfl, State.writeReg, State.writeStatus_eq]

/-! ### Read-only and reserved offsets, ID (R28, R22) -/

/-- Settles O19: at each of these offsets `writeReg` is the identity, and a reserved one reads 0. -/
theorem otherOffsetsFollowR28 : Obligations.OtherOffsetsFollowR28 := by
  intro s off u rest hp hoff
  refine ⟨fun h hr => ?_, fun h hr => ?_⟩
  · rw [step_write_idle hp hoff h]
    obtain rfl | rfl | rfl | rfl | hr := hr
    iterate 4 rfl
    rw [winReg_reserved hr, State.writeReg]
  · rw [step_read_idle hp hoff h, State.readWord, winReg_reserved hr, State.readReg]

/-- Settles O21: offset 0 reads the field `id`, which the invariant fixes, and takes no write. -/
theorem idReadsTheConstant : Obligations.IdReadsTheConstant := by
  intro s rest hinv hp
  refine ⟨fun h => ?_, fun u h => ?_⟩
  · have hid : s.readWord 0x00#8 = 0x47490001#32 := hinv.idConstant
    rw [step_read_idle hp (by decide) h, hid]
  · rw [step_write_idle hp (by decide) h]; rfl

/-! ### NORM has one writer (R15) -/

theorem Instr.mnemonic_eq_norm {i : Instr} (h : i.mnemonic = "NORM") : ∃ rs1, i = .norm rs1 := by
  cases i with
  | norm rs1 => exact ⟨rs1, rfl⟩
  | _ => simp [Instr.mnemonic] at h

@[simp] theorem State.issue_norm (u : Word) (s : State) : (s.issue u).norm = s.norm := by
  obtain ⟨-, e⟩ | ⟨-, -, e⟩ | ⟨-, -, e⟩ := s.issue_cases u <;> simp [e]

/-- No access to the window writes NORM (R28). -/
@[simp] theorem State.writeReg_norm (u : Word) (r : WinReg) (s : State) : (s.writeReg u r).norm = s.norm := by
  cases r with
  | cmd => exact s.issue_norm u
  | status => exact s.writeStatus_norm u
  | _ => rfl

/-- Serving the port writes NORM only for a reset. -/
theorem State.serve_norm {s : State} (hr : s.resetNext = false) : s.serve.norm = s.norm := by
  obtain ⟨-, e⟩ | ⟨_, _, _, -, -, e⟩ | ⟨_, _, _, -, -, e⟩ | ⟨_, _, _, _, -, -, e⟩ | ⟨_, _, _, _, -, -, e⟩
    | ⟨rest, h, -⟩ := s.serve_cases
  · rw [e]
  · rw [e]
  · rw [e, State.raise_norm]
  · rw [e, State.writeReg_norm]
  · rw [e, State.raise_norm]
  · simp [State.resetNext, h] at hr

/-- What NORM writes is in `[0, 2^63]` (R15, R76). -/
theorem toNat_written_norm_le {x : Gauss} (h : x.fits) : (BitVec.ofInt 64 x.norm).toNat ≤ 2 ^ 63 := by
  have h0 := x.norm_nonneg
  have h1 := Gauss.norm_le_of_fits h
  rw [BitVec.toNat_ofInt]; omega

/-- Settles O31: of the four steps only a command can write NORM, and by its frame only the NORM command does. -/
theorem onlyTheNormCommandWritesNorm : Obligations.OnlyTheNormCommandWritesNorm := by
  intro s t h hr hne
  obtain ⟨-, e⟩ | ⟨u, -, -, -, e⟩ | ⟨u, i, -, hp, -, hd, e⟩ | ⟨u, err, -, -, -, -, e⟩ := step_cases s
  · cases e.symm.trans h; exact absurd (State.serve_norm hr) hne
  · cases e.symm.trans h; exact absurd (State.serve_norm hr) hne
  · have hexec : exec i s = .next t := e.symm.trans h
    obtain ⟨rs1, rfl⟩ := Instr.mnemonic_eq_norm (not_imp_comm.1 (keepsFrame_of_exec hexec).norm hne)
    cases hexec
    exact ⟨⟨u, rs1, hp, hd⟩, toNat_written_norm_le (s.readG_fits rs1)⟩
  · cases e.symm.trans h; exact absurd rfl hne

/-! ### The writers of the bits of STATUS (R29)

Most steps keep every bit that STATUS shows (`KeepsStatus`). The others are a CMD write, a STATUS write, an access that is not
well-formed and a command; for each of them what it may do to a bit is said once, as `WritersOfR29`. -/

/-- `t` shows the same STATUS word as `s`, and the slot is as it was. -/
structure KeepsStatus (s t : State) : Prop where
  pred : t.pred = s.pred
  wrap : t.wrap = s.wrap
  fault : t.fault = s.fault
  fcode : t.fcode = s.fcode
  busy : t.busy = s.busy
  pending : t.pending = s.pending

/-- Taking an input off the port and delivering a word keeps the bits of STATUS (R38). -/
theorem State.keepsStatus_input (s : State) (rest : List PortInput) (v : Word) :
    KeepsStatus s { s with port := rest, rdata := v } := by
  constructor <;> rfl

/-- A write of any register but CMD and STATUS keeps the bits of STATUS (R27, R28). -/
theorem State.writeReg_keepsStatus (s : State) (u : Word) {r : WinReg} (hcmd : r ≠ .cmd) (hstatus : r ≠ .status) :
    KeepsStatus s (s.writeReg u r) := by
  cases r with
  | cmd => exact absurd rfl hcmd
  | status => exact absurd rfl hstatus
  | _ => constructor <;> rfl

/-- An access that is not well-formed is not 4 bytes at a multiple of 4 (R33). -/
theorem not_aligned_word {off : Offset} {size : Nat} (hw : wellFormedAccess off size = false) :
    ¬ (size = 4 ∧ off.toNat % 4 = 0) := by
  rw [← wellFormedAccess_iff, hw]; exact Bool.false_ne_true

theorem State.statusReadNext_iff (s : State) : s.statusReadNext = true ↔ ∃ rest, s.port = .read 8#8 4 :: rest := by
  unfold State.statusReadNext
  split
  case h_1 off size rest h => simp [isStatusRead_iff, h, and_comm]
  case h_2 hno => exact ⟨nofun, fun ⟨rest, h⟩ => absurd h (hno _ _ rest)⟩

/-- A STATUS read served while a command executes keeps the bits of STATUS (R40). -/
theorem State.serveWhileBusy_keepsStatus {s : State} (h : s.readsWhileBusy = true) : KeepsStatus s s.serveWhileBusy := by
  obtain ⟨rest, hport⟩ := s.statusReadNext_iff.1 (Bool.and_eq_true_iff.1 h).1
  rw [State.serveWhileBusy, State.serve, hport]
  constructor <;> rfl

/-- A command leaves the fault record, or is one that can fault and takes DIVZERO or RANGE (R112). -/
theorem exec_fault_cases {i : Instr} {s t : State} (h : exec i s = .next t) :
    (t.fault = s.fault ∧ t.fcode = s.fcode)
    ∨ (canFault i = true ∧ ∃ c, (c = .divzero ∨ c = .range) ∧ t = s.raiseCmd c i) := by
  cases i with
  | div rd rd2 rs1 rs2 =>
    obtain ⟨-, e⟩ | ⟨-, -, e⟩ | ⟨-, -, -, e⟩ := execDiv_cases rd rd2 rs1 rs2 s <;> cases e.symm.trans h
    · exact .inr ⟨rfl, .divzero, .inl rfl, rfl⟩
    · exact .inr ⟨rfl, .range, .inr rfl, rfl⟩
    · exact .inl ⟨rfl, rfl⟩
  | gcd rd rs1 rs2 =>
    obtain ⟨-, e⟩ | ⟨-, e⟩ := execGcd_cases rd rs1 rs2 s <;> cases e.symm.trans h
    · exact .inl ⟨rfl, rfl⟩
    · exact .inr ⟨rfl, .range, .inr rfl, rfl⟩
  | xgcd rd rd2 rd3 rs1 rs2 =>
    obtain ⟨-, e⟩ | ⟨-, e⟩ := execXgcd_cases rd rd2 rd3 rs1 rs2 s <;> cases e.symm.trans h
    · exact .inl ⟨rfl, rfl⟩
    · exact .inr ⟨rfl, .range, .inr rfl, rfl⟩
  | _ => cases h; exact .inl ⟨rfl, rfl⟩

/-- The command in the slot of `s` is one of those `p` selects. -/
def State.Runs (s : State) (p : Instr → Bool) : Prop :=
  ∃ u i, s.pending = some u ∧ decode u = .ok i ∧ p i = true

/-- The block is idle and a STATUS write with bit `b` set is next. -/
def State.StatusWriteNext (s : State) (b : Fin 32) : Prop :=
  ∃ u rest, s.port = .write 8#8 4 u :: rest ∧ s.pending = none ∧ u[b] = true

/-- The block is idle and a CMD write of a word that is not legal is next. -/
def State.IllegalWriteNext (s : State) : Prop :=
  ∃ u rest, s.pending = none ∧ s.port = .write 4#8 4 u :: rest ∧ isLegal u = false

/-- The block is idle and an access that is not well-formed is next. -/
def State.MalformedNext (s : State) : Prop :=
  ∃ off size rest, s.pending = none ∧ ¬ (size = 4 ∧ off.toNat % 4 = 0)
    ∧ (s.port = .read off size :: rest ∨ ∃ v, s.port = .write off size v :: rest)

/-- What the step from `s` does next can raise the fault of this code (R112). -/
def State.FaultCause (s : State) (code : BitVec 4) : Prop :=
  (s.IllegalWriteNext ∧ code = 1#4) ∨ (s.MalformedNext ∧ code = 4#4)
    ∨ (s.Runs canFault ∧ (code = 2#4 ∨ code = 3#4))

/-- A change of a bit of STATUS from `s` to `t` has one of the causes R29 lists. -/
structure WritersOfR29 (s t : State) : Prop where
  pred : t.pred ≠ s.pred → s.Runs writesPred
  wrapSet : s.wrap = false → t.wrap = true → s.Runs canWrap
  wrapCleared : s.wrap = true → t.wrap = false → s.StatusWriteNext 2
  recordCleared : s.fault = true → t.fault = false ∨ t.fcode ≠ s.fcode → s.StatusWriteNext 3
  recordSet : s.fault = false → t.fault = true ∨ t.fcode ≠ s.fcode → s.FaultCause t.fcode
  busy : t.busy = t.pending.isSome

section

variable {s t : State}

/-- Where no bit changes there is no writer to name. -/
theorem KeepsStatus.writersOfR29 (hk : KeepsStatus s t) (hb : s.busy = s.pending.isSome) : WritersOfR29 s t where
  pred h := absurd hk.pred h
  wrapSet h0 h1 := by simp [hk.wrap, h0] at h1
  wrapCleared h1 h0 := by simp [hk.wrap, h1] at h0
  recordCleared h1 h := by simp [hk.fault, hk.fcode, h1] at h
  recordSet h0 h := by simp [hk.fault, hk.fcode, h0] at h
  busy := by rw [hk.busy, hk.pending, hb]

/-- Taking a fault while none is recorded: the only bits that change are FAULT, FCODE and BUSY, and the cause of the fault is the
writer; while one is recorded, only BUSY changes (R117). -/
theorem KeepsStatus.raise_writersOfR29 (hk : KeepsStatus s t) (c : FaultCode) (w : Word)
    (hcause : s.fault = false → s.FaultCause c.bits) : WritersOfR29 s (t.raise c w) where
  pred h := absurd hk.pred h
  wrapSet h0 h1 := by simp [hk.wrap, h0] at h1
  wrapCleared h1 h0 := by simp [hk.wrap, h1] at h0
  recordCleared h1 h := by simp [hk.fault, hk.fcode, h1] at h
  recordSet h0 _ := by simpa [hk.fault, h0] using hcause h0
  busy := rfl

/-- A STATUS write clears what its word says (R19). -/
theorem writeStatus_writersOfR29 {u : Word} {rest : List PortInput} (hp : s.pending = none)
    (h : s.port = .write 8#8 4 u :: rest) (hb : s.busy = s.pending.isSome)
    (hnone : s.fault = false → s.fcode = 0#4) :
    WritersOfR29 s (State.writeStatus u { s with port := rest }) where
  pred hne := absurd (State.writeStatus_pred _ u) hne
  wrapSet h0 h1 := by simp [h0] at h1
  wrapCleared h1 h0 := ⟨u, rest, h, hp, by simpa [h1] using h0⟩
  recordCleared h1 hc := ⟨u, rest, h, hp, by
    cases h3 : u[3]
    · simp [h1, h3] at hc
    · exact h3⟩
  recordSet h0 hc := by simp [h0, hnone h0] at hc
  busy := by simp [hb]

/-- A CMD write is ignored, records ILLEGAL, or fills the slot (R41). -/
theorem issue_writersOfR29 {u : Word} {rest : List PortInput} (hp : s.pending = none)
    (h : s.port = .write 4#8 4 u :: rest) (hb : s.busy = s.pending.isSome) :
    WritersOfR29 s (State.issue u { s with port := rest }) := by
  have hk : KeepsStatus s { s with port := rest, cmdlast := u } := by constructor <;> rfl
  obtain ⟨-, e⟩ | ⟨-, hl, e⟩ | ⟨-, -, e⟩ := State.issue_cases u { s with port := rest } <;> rw [e]
  · exact hk.writersOfR29 hb
  · exact hk.raise_writersOfR29 _ _ fun _ => .inl ⟨⟨u, rest, hp, h, hl⟩, rfl⟩
  · exact { hk.writersOfR29 hb with busy := rfl }

/-- Serving the port of an idle block, when no reset is next. -/
theorem serve_writersOfR29 (hinv : s.Inv) (hr : s.resetNext = false) (hp : s.pending = none) :
    WritersOfR29 s s.serve := by
  have hb := hinv.busyFollowsSlot
  obtain ⟨-, e⟩ | ⟨off, size, rest, -, -, e⟩ | ⟨off, size, rest, h, hw, e⟩ | ⟨off, size, u, rest, h, hw, e⟩
    | ⟨off, size, u, rest, h, hw, e⟩ | ⟨rest, h, -⟩ := s.serve_cases
  · rw [e]; exact (s.keepsStatus_input s.port s.rdata).writersOfR29 hb
  · rw [e]; exact (s.keepsStatus_input rest _).writersOfR29 hb
  · rw [e]
    exact (s.keepsStatus_input rest 0#32).raise_writersOfR29 .access _ fun _ =>
      .inr (.inl ⟨⟨off, size, rest, hp, not_aligned_word hw, .inl h⟩, rfl⟩)
  · obtain ⟨rfl, hoff⟩ := (wellFormedAccess_iff off size).1 hw
    rw [e]
    by_cases hcmd : winReg off = .cmd
    · obtain rfl := (winReg_eq_cmd_iff hoff).1 hcmd
      exact issue_writersOfR29 hp h hb
    · by_cases hstatus : winReg off = .status
      · obtain rfl := (winReg_eq_status_iff hoff).1 hstatus
        exact writeStatus_writersOfR29 hp h hb fun h0 => (hinv.noFaultNoRecord h0).1
      · have hk := State.writeReg_keepsStatus { s with port := rest } u hcmd hstatus
        exact KeepsStatus.writersOfR29 { hk with } hb
  · rw [e]
    exact (s.keepsStatus_input rest s.rdata).raise_writersOfR29 .access _ fun _ =>
      .inr (.inl ⟨⟨off, size, rest, hp, not_aligned_word hw, .inr ⟨u, h⟩⟩, rfl⟩)
  · simp [State.resetNext, h] at hr

/-- Executing the command in the slot, which was accepted while no fault was recorded. -/
theorem exec_writersOfR29 {u : Word} {i : Instr} (hinv : s.Inv) (hp : s.pending = some u) (hd : decode u = .ok i)
    (h : exec i s = .next t) : WritersOfR29 s t := by
  have hruns {p : Instr → Bool} (hi : ¬ p i = false) : s.Runs p := ⟨u, i, hp, hd, Bool.eq_true_of_not_eq_false hi⟩
  have hframe := keepsFrame_of_exec h
  have hdone := completes_of_exec h
  obtain ⟨-, -, h0⟩ := hinv.slotHoldsAnAcceptedCommand u hp
  exact
    { pred := fun hne => hruns (mt hframe.pred hne)
      wrapSet := fun hw0 hw1 => hruns fun hi => by simp [hframe.wrap hi, hw0] at hw1
      wrapCleared := fun hw1 hw0 => by simp [hframe.wrapSticky hw1] at hw0
      recordCleared := fun h1 => by simp [h0] at h1
      recordSet := fun _ hc => by
        obtain ⟨hfault, hfcode⟩ | ⟨hi, c, hcode, rfl⟩ := exec_fault_cases h
        · simp [hfault, hfcode, h0] at hc
        · refine .inr (.inr ⟨⟨u, i, hp, hd, hi⟩, ?_⟩)
          rw [State.raiseCmd_fcode, h0]
          exact hcode.imp (congrArg FaultCode.bits) (congrArg FaultCode.bits)
      busy := by rw [hdone.notBusy, hdone.slotEmpty]; rfl }

/-- Every step between resets names the writer of each bit it changes. A word that is not legal is never in the slot of a state
with the invariant. -/
theorem step_writersOfR29 (hinv : s.Inv) (h : step s = .next t) (hr : s.resetNext = false) : WritersOfR29 s t := by
  obtain ⟨hcase, e⟩ | ⟨u, -, -, hb, e⟩ | ⟨u, i, -, hp, -, hd, e⟩ | ⟨u, err, -, hp, -, hd, -⟩ := step_cases s
  · have hp : s.pending = none := hcase.resolve_left (by simp [hr])
    cases e.symm.trans h
    exact serve_writersOfR29 hinv hr hp
  · cases e.symm.trans h
    exact (State.serveWhileBusy_keepsStatus hb).writersOfR29 hinv.busyFollowsSlot
  · exact exec_writersOfR29 hinv hp hd (e.symm.trans h)
  · obtain ⟨i, hi⟩ := (isLegal_iff u).1 (hinv.slotHoldsAnAcceptedCommand u hp).1
    simp [hd] at hi

end

/-- Settles O30: `step_writersOfR29`, with the causes written out. -/
theorem statusBitsHaveOnlyTheWritersOfR29 : Obligations.StatusBitsHaveOnlyTheWritersOfR29 := by
  intro s t hinv h hr
  have hw := step_writersOfR29 hinv h hr
  refine ⟨hw.pred, hw.wrapSet, hw.wrapCleared, hw.recordCleared, fun h0 hc => ?_, hw.busy⟩
  obtain ⟨⟨u, rest, hp, hport, hl⟩, hcode⟩ | ⟨⟨off, size, rest, hp, hm, hport⟩, hcode⟩ | ⟨⟨u, i, hp, hd, hi⟩, hcode⟩ :=
    hw.recordSet h0 hc
  · exact .inl ⟨u, rest, hp, hport, hl, hcode⟩
  · exact .inr (.inl ⟨off, size, rest, hp, hm, hcode, hport⟩)
  · exact .inr (.inr ⟨u, i, hp, hd, hi, hcode⟩)

end Sys2Proof.Machine
end

section
/-! Proofs of the statements of 20_memory.md: host addresses (R31, R32), the byte lanes of the window (R35), the accesses of an idle
block (R34, R39, R41), the hold while a command executes (R40), and a command from its CMD write to its completion. -/

namespace Sys2Proof.Machine

open Sys2Proof

/-! ### Host addresses (R31, R32) -/

theorem windowOffset?_base_add (off : Offset) : windowOffset? (Config.giuBase + off.toNat) = some off := by
  have := off.isLt
  rw [windowOffset?, if_pos (by omega), Nat.add_sub_cancel_left, BitVec.ofNat_toNat, BitVec.setWidth_eq]

theorem windowOffset?_outside {a : Nat} (h : a < Config.giuBase ∨ Config.giuBase + 0x100 ≤ a) : windowOffset? a = none := by
  rw [windowOffset?, if_neg (by omega)]

/-- Settles O24: `windowOffset?` inverts `GIU_BASE + off`, and answers none outside the window. -/
theorem hostAddressesReachTheirOffsets : Obligations.HostAddressesReachTheirOffsets := by
  refine ⟨Nat.mul_mod_right _ _, fun s off n v => ?_, fun s a n v h => ?_⟩
  · rw [State.memRead, State.memWrite, windowOffset?_base_add]; exact ⟨rfl, rfl⟩
  · rw [State.memRead, State.memWrite, windowOffset?_outside h]; exact ⟨rfl, rfl⟩

/-! ### The byte lanes of a word (R35) -/

/-- The four bytes from an aligned offset on lie in one register of the window (R26). -/
theorem winReg_add_lane {off : Offset} (hoff : off.toNat % 4 = 0) : ∀ j < 4, winReg (off + BitVec.ofNat 8 j) = winReg off := by
  revert off; decide

/-- Lane `j` of an aligned word is its byte of weight `2^(8j)`. -/
theorem State.toNat_windowByte_lane (s : State) {off : Offset} (hoff : off.toNat % 4 = 0) {j : Nat} (hj : j < 4) :
    (s.windowByte (off + BitVec.ofNat 8 j)).toNat = (s.readWord off).toNat / 2 ^ (8 * j) % 2 ^ 8 := by
  have hlane : (off + BitVec.ofNat 8 j).toNat % 4 = j := by
    rw [BitVec.toNat_add, BitVec.toNat_ofNat]; omega
  rw [State.windowByte, hlane, State.readWord, winReg_add_lane hoff j hj, BitVec.extractLsb'_toNat,
    Nat.shiftRight_eq_div_pow, State.readWord]

/-- Settles O25: the bytes are the digits of the word to the base `2^8`. -/
theorem windowBytesAreLittleEndian : Obligations.WindowBytesAreLittleEndian := by
  intro s off hoff
  have h0 := s.toNat_windowByte_lane hoff (j := 0) (by decide)
  rw [BitVec.add_zero] at h0
  rw [h0, s.toNat_windowByte_lane hoff (j := 1) (by decide), s.toNat_windowByte_lane hoff (j := 2) (by decide),
    s.toNat_windowByte_lane hoff (j := 3) (by decide)]
  have hlt := (s.readWord off).isLt
  omega

/-! ### Reads of an idle block (R39) -/

/-- Settles O16: a well-formed read delivers `readWord`, whose value at each offset is the register map's. -/
theorem windowReadsFollowR39 : Obligations.WindowReadsFollowR39 := by
  intro s off rest hp hoff h
  refine ⟨s.readWord off, step_read_idle hp hoff h, ?_, ?_, ?_, ?_, ?_, ?_, fun k hk => ?_, fun k hk => ?_, fun hr => ?_⟩
  · rintro rfl; rfl
  · rintro rfl; rfl
  · rintro rfl; exact s.statusWord_toNat
  · rintro rfl; rfl
  · rintro rfl
    have hlo : s.readWord 0x10#8 = s.norm.extractLsb' 0 32 := rfl
    rw [hlo, BitVec.extractLsb'_toNat, Nat.shiftRight_zero]
  · rintro rfl
    have hhi : s.readWord 0x14#8 = s.norm.extractLsb' 32 32 := rfl
    rw [hhi, BitVec.extractLsb'_toNat, Nat.shiftRight_eq_div_pow]
    have := s.norm.isLt
    omega
  · obtain rfl : off = BitVec.ofNat 8 (0x40 + 8 * k.val) := by rw [← hk, BitVec.ofNat_toNat, BitVec.setWidth_eq]
    rw [State.readWord_gRe]; exact ⟨rfl, rfl⟩
  · obtain rfl : off = BitVec.ofNat 8 (0x44 + 8 * k.val) := by rw [← hk, BitVec.ofNat_toNat, BitVec.setWidth_eq]
    rw [State.readWord_gIm]; exact ⟨rfl, rfl⟩
  · rw [State.readWord, winReg_reserved (by omega), State.readReg]

/-! ### Accesses that are not well-formed (R34) -/

/-- Settles O20: the access is performed as `raise Fault(ACCESS, offset)`, with a read's data cleared. -/
theorem malformedAccessesFollowR34 : Obligations.MalformedAccessesFollowR34 := by
  intro s off size rest hp hm
  have hw : wellFormedAccess off size = false := Bool.eq_false_iff.2 (mt (wellFormedAccess_iff off size).1 hm)
  refine ⟨fun h => ?_, fun u h => ?_⟩
  · rw [step_idle hp, State.serve, h, BitVec.ofNat_toNat]
    simp only [State.doRead, hw]; rfl
  · rw [step_idle hp, State.serve, h, BitVec.ofNat_toNat]
    simp only [State.doWrite, hw]; rfl

/-! ### The CMD write (R41) -/

/-- A CMD write to an idle block is `issue`. -/
theorem step_cmd_write {s : State} {u : Word} {rest : List PortInput} (hp : s.pending = none)
    (h : s.port = .write 4#8 4 u :: rest) : step s = .next (State.issue u { s with port := rest }) := by
  rw [step_write_idle hp (by decide) h, (winReg_eq_cmd_iff (by decide)).2 rfl, State.writeReg]

/-- With no fault recorded, the CMD write of a legal word is accepted. -/
theorem step_cmd_accept {s : State} {u : Word} {rest : List PortInput} (hp : s.pending = none) (hf : s.fault = false)
    (hl : isLegal u = true) (h : s.port = .write 4#8 4 u :: rest) :
    step s = .next (State.accept u { s with port := rest, cmdlast := u }) := by
  rw [step_cmd_write hp h]; simp [State.issue, hf, hl]

/-- Settles O14: the three outcomes of `issue`; an accepted word draws its latency by the count of accepted commands. -/
theorem commandWriteFollowsR41 : Obligations.CommandWriteFollowsR41 := by
  intro s u rest hp h
  refine ⟨fun hf => ?_, fun hf hl => ?_, fun hf hl => ⟨_, _, step_cmd_accept hp hf hl h⟩⟩
  · rw [step_cmd_write hp h]; simp [State.issue, hf]
  · rw [step_cmd_write hp h]; simp [State.issue, hf, hl, State.raise, FaultCode.bits]

/-! ### The hold while a command executes (R40) -/

/-- When neither a reset nor a STATUS read is next, the step completes the command and the port is as it was: the access is
held. -/
theorem step_holds {s : State} {u : Word} {i : Instr} (hp : s.pending = some u) (hd : decode u = .ok i)
    (hr : s.resetNext = false) (hs : s.statusReadNext = false) :
    ∃ t, exec i s = .next t ∧ step s = .next t ∧ t.port = s.port ∧ t.pending = none ∧ t.busy = false := by
  obtain ⟨t, he, hc⟩ := exec_completes i s
  have hb : s.readsWhileBusy = false := by rw [State.readsWhileBusy, hs, Bool.false_and]
  exact ⟨t, he, (stepRunsTheCommandInTheSlot s u i hp hd hr hb).trans he, hc.port, hc.slotEmpty, hc.notBusy⟩

/-- A STATUS read that the executing command outlasts is performed. -/
theorem step_status_read_while_busy {s : State} {u : Word} {rest : List PortInput} (hp : s.pending = some u)
    (h : s.port = .read 8#8 4 :: rest) (hn : 0 < s.busyFor) :
    step s = .next { s with port := rest, rdata := s.statusWord, busyFor := s.busyFor - 1 } := by
  have hr : s.resetNext = false := by rw [State.resetNext, h]
  have hb : s.readsWhileBusy = true := by
    rw [State.readsWhileBusy, s.statusReadNext_iff.2 ⟨rest, h⟩, Bool.true_and, decide_eq_true hn]
  have hserve : s.serve = { s with port := rest, rdata := s.statusWord } := by rw [State.serve, h]; rfl
  have hstep : step s = .next s.serveWhileBusy := by simp [step, hr, hp, hb]
  rw [hstep, State.serveWhileBusy, hserve]

/-- Settles O12: `step_status_read_while_busy` for the first access, `step_holds` for the others. -/
theorem busyHoldsAllButStatusReads : Obligations.BusyHoldsAllButStatusReads := by
  intro s u hp
  refine ⟨fun rest h hn hbusy => ?_, fun i off size rest hd h hne => ?_, fun i off size v rest hd h => ?_⟩
  · exact ⟨s.statusWord, s.statusWord_bits.1.trans hbusy, step_status_read_while_busy hp h hn⟩
  · have hs : s.statusReadNext = false := by
      rw [State.statusReadNext, h]
      exact Bool.eq_false_iff.2 (mt (isStatusRead_iff off size).1 fun hc => hne hc.symm)
    rw [← h]; exact step_holds hp hd (by rw [State.resetNext, h]) hs
  · rw [← h]; exact step_holds hp hd (by rw [State.resetNext, h]) (by rw [State.statusReadNext, h])

/-! ### A command completes (R40, R142) -/

/-- A run takes its first step and goes on from there. -/
theorem run_succ {M : Host.Core} {s t : M.State} (n : Nat) (h : M.step s = .next t) : M.run (n + 1) s = M.run n t := by
  rw [Host.Core.run, h]

/-- A reset at the head of the port empties the slot (R133). -/
theorem State.serve_reset_pending {s : State} (hr : s.resetNext = true) : s.serve.pending = none := by
  unfold State.resetNext at hr
  split at hr
  case h_1 rest h => rw [State.serve, h]; rfl
  case h_2 => exact absurd hr Bool.false_ne_true

/-- With a word in the slot, one step empties the slot or uses up one of the STATUS reads the command outlasts. -/
theorem step_empties_slot_or_counts_down {s : State} {u : Word} (hp : s.pending = some u) :
    ∃ t, step s = .next t ∧ (t.pending = none ∨ t.busyFor + 1 = s.busyFor) := by
  obtain ⟨hcase, e⟩ | ⟨_, -, -, hb, e⟩ | ⟨_, i, -, -, -, -, e⟩ | ⟨_, _, -, -, -, -, e⟩ := step_cases s
  · exact ⟨_, e, .inl (State.serve_reset_pending (hcase.resolve_right (by simp [hp])))⟩
  · have hpos : 0 < s.busyFor := of_decide_eq_true (Bool.and_eq_true_iff.1 hb).2
    exact ⟨_, e, .inr (Nat.sub_add_cancel hpos)⟩
  · obtain ⟨t, he, hc⟩ := exec_completes i s
    exact ⟨t, e.trans he, .inl hc.slotEmpty⟩
  · exact ⟨_, e, .inl rfl⟩

/-- Settles O5: induction on the STATUS reads the command outlasts. -/
theorem everyCommandCompletes : Obligations.EveryCommandCompletes := by
  intro s
  induction hk : s.busyFor using Nat.strong_induction_on generalizing s with
  | _ k ih =>
    cases hp : s.pending with
    | none => exact ⟨0, Nat.zero_le _, s, rfl, hp⟩
    | some u =>
      obtain ⟨t, hstep, ht | ht⟩ := step_empties_slot_or_counts_down hp
      · exact ⟨1, Nat.le_add_left _ _, t, run_succ 0 hstep, ht⟩
      · obtain ⟨n, hn, w, hrun, hw⟩ := ih t.busyFor (by omega) t rfl
        exact ⟨n + 1, by omega, w, (run_succ n hstep).trans hrun, hw⟩

/-! ### From the CMD write to the completion (R41, R42, R45) -/

/-- Decoding the word of a well-formed command gives the command back (R58, R61). -/
theorem decode_encode {i : Instr} (h : i.wellFormed = true) : decode (encode i) = .ok i := by
  rw [decode, encode, fieldsOf_wordOf]
  cases i with
  | add => exact Laws.FieldRoundTrip.add _ _ _ h
  | sub => exact Laws.FieldRoundTrip.sub _ _ _ h
  | mul => exact Laws.FieldRoundTrip.mul _ _ _ h
  | conj => exact Laws.FieldRoundTrip.conj _ _ h
  | norm => exact Laws.FieldRoundTrip.norm _ h
  | ldc => exact Laws.FieldRoundTrip.ldc _ _ h
  | eq => exact Laws.FieldRoundTrip.eq _ _ h
  | iszero => exact Laws.FieldRoundTrip.iszero _ h
  | isunit => exact Laws.FieldRoundTrip.isunit _ h
  | isassoc => exact Laws.FieldRoundTrip.isassoc _ _ h
  | div => exact Laws.FieldRoundTrip.div _ _ _ _ h
  | gcd => exact Laws.FieldRoundTrip.gcd _ _ _ h
  | xgcd => exact Laws.FieldRoundTrip.xgcd _ _ _ _ _ h

/-- A command does after its acceptance what it does on the state before, but for the count of accepted commands: acceptance leaves
its operands and the fault record, and the completion overwrites the fields of the slot. -/
theorem exec_accept {i : Instr} {s w : State} (u : Word) (h : exec i s = .next w) :
    exec i (s.accept u) = .next { w with seq := s.seq + 1 } := by
  cases i with
  | div rd rd2 rs1 rs2 =>
    obtain ⟨hz, e⟩ | ⟨hz, hf, e⟩ | ⟨hz, hq, hr, e⟩ := execDiv_cases rd rd2 rs1 rs2 s <;> cases e.symm.trans h
    · exact if_pos ((Gauss.isZero_iff _).2 hz)
    · exact (if_neg (mt (Gauss.isZero_iff _).1 hz)).trans (if_neg hf)
    · exact (if_neg (mt (Gauss.isZero_iff _).1 hz)).trans (if_pos ⟨hq, hr⟩)
  | gcd rd rs1 rs2 =>
    obtain ⟨hf, e⟩ | ⟨hf, e⟩ := execGcd_cases rd rs1 rs2 s <;> cases e.symm.trans h
    · exact if_pos hf
    · exact if_neg hf
  | xgcd rd rd2 rd3 rs1 rs2 =>
    obtain ⟨hf, e⟩ | ⟨hf, e⟩ := execXgcd_cases rd rd2 rd3 rs1 rs2 s <;> cases e.symm.trans h
    · exact if_pos hf
    · exact if_neg hf
  | _ => cases h; rfl

/-- Settles O13: the first step accepts the word, the second executes the command it decodes to. -/
theorem commandWrittenIsCommandExecuted : Obligations.CommandWrittenIsCommandExecuted := by
  intro s i rest hwf hp hf hport hr hs
  have hd := decode_encode hwf
  obtain ⟨w, hw, -⟩ := exec_completes i { s with port := rest, cmdlast := encode i }
  have hfirst := step_cmd_accept hp hf ((isLegal_iff _).2 ⟨i, hd⟩) hport
  obtain ⟨t, hexec, hsecond, -⟩ :=
    step_holds (s := State.accept (encode i) { s with port := rest, cmdlast := encode i }) rfl hd hr hs
  cases hexec.symm.trans (exec_accept (encode i) hw)
  exact ⟨_, w, hw, (run_succ 1 hfirst).trans (run_succ 0 hsecond), rfl⟩

end Sys2Proof.Machine
end

section
/-! Proofs of the statements of 30_encoding.md: the fields of a word (R53), the round trips between commands and words (R59, R61), and
the agreement of the decoder with R57's masks (R58). -/

namespace Sys2Proof

/-! ### What a success of the decoder says -/

theorem regOf_inj {a b : BitVec 4} : regOf a = regOf b ↔ a = b :=
  ⟨fun h => congrArg regBits h, fun h => congrArg regOf h⟩

/-- The legal selectors are those of the three constants (R55). -/
theorem selectorOf_eq_ok {b : BitVec 4} {k : GConst} : selectorOf b = .ok k ↔ selectorBits k = b := by
  cases k <;> revert b <;> decide

/-- R58 (2) admits the selectors that have a constant. -/
theorem exists_selectorBits_eq {b : BitVec 4} (h : b.toNat ≤ 2) : ∃ k, selectorBits k = b := by
  have hb : b = 0#4 ∨ b = 1#4 ∨ b = 2#4 := by bv_omega
  obtain rfl | rfl | rfl := hb
  · exact ⟨.zero, rfl⟩
  · exact ⟨.one, rfl⟩
  · exact ⟨.i, rfl⟩

theorem decodeLdc_eq_ok {f : Fields} {i : Instr} :
    decodeLdc f = .ok i ↔ ∃ k, selectorBits k = f.imm ∧ .ldc (regOf f.rd) k = i := by
  simp only [← selectorOf_eq_ok, decodeLdc]
  cases selectorOf f.imm <;> simp

theorem decodeDiv_eq_ok {f : Fields} {i : Instr} :
    decodeDiv f = .ok i ↔ f.rd ≠ f.rd2 ∧ .div (regOf f.rd) (regOf f.rd2) (regOf f.rs1) (regOf f.rs2) = i := by
  unfold decodeDiv; split <;> simp [*]

theorem decodeXgcd_eq_ok {f : Fields} {i : Instr} :
    decodeXgcd f = .ok i ↔ ¬ (f.rd = f.rd2 ∨ f.rd = f.rd3 ∨ f.rd2 = f.rd3)
      ∧ .xgcd (regOf f.rd) (regOf f.rd2) (regOf f.rd3) (regOf f.rs1) (regOf f.rs2) = i := by
  unfold decodeXgcd; split <;> simp [*]

/-- Fields that decode are the fields of the command they decode to, which is well formed: each arm of the decoder reads the
operands where the encoder puts them, and has checked the fields the encoder leaves zero (R57, R58). -/
theorem encodeFields_of_decodeFields {f : Fields} {i : Instr} (h : decodeFields f = .ok i) :
    encodeFields i = f ∧ i.wellFormed = true := by
  obtain ⟨opc, rd, rd2, rd3, rs1, rs2, imm⟩ := f
  unfold decodeFields at h
  split at h
  case h_14 => cases h -- no operation code of R56
  all_goals
    rename_i hopc
    obtain ⟨-, rfl⟩ := BitVec.toNat_eq_nat (x := opc).1 hopc
    obtain ⟨hz, h⟩ := ifZero_ok h
    simp only [List.forall_mem_cons, List.not_mem_nil, false_implies, implies_true, and_true] at hz
  case h_6 => -- LDC
    obtain ⟨k, hk, rfl⟩ := decodeLdc_eq_ok.1 h
    simp [encodeFields, Instr.wellFormed, hz, hk]
  case h_11 => -- DIV
    obtain ⟨hne, rfl⟩ := decodeDiv_eq_ok.1 h
    simpa [encodeFields, Instr.wellFormed, hz, regOf_inj] using hne
  case h_13 => -- XGCD
    obtain ⟨hne, rfl⟩ := decodeXgcd_eq_ok.1 h
    simpa [encodeFields, Instr.wellFormed, hz, regOf_inj, and_assoc] using hne
  all_goals
    cases h
    simp [encodeFields, Instr.wellFormed, hz]

/-! ### The masks of R57 with the conditions of R58 -/

/-- The fields of a word under a mask. -/
def Fields.masked (f m : Fields) : Fields :=
  ⟨f.opc &&& m.opc, f.rd &&& m.rd, f.rd2 &&& m.rd2, f.rd3 &&& m.rd3, f.rs1 &&& m.rs1, f.rs2 &&& m.rs2, f.imm &&& m.imm⟩

theorem wordOf_masked (f m : Fields) : wordOf (f.masked m) = wordOf f &&& wordOf m := (wordOf_and f m).symm

/-- A row selects the word of given fields when these agree with the row's match under its mask, and the row's condition holds. -/
theorem selects_wordOf (r : Row) (f : Fields) :
    r.selects (wordOf f) = true ↔ f.masked (fieldsOf r.mask) = fieldsOf r.pat ∧ r.extra (wordOf f) = true := by
  have hpat : wordOf f &&& r.mask = r.pat ↔ f.masked (fieldsOf r.mask) = fieldsOf r.pat := by
    rw [← wordOf_fieldsOf r.mask, ← wordOf_masked, wordOf_fieldsOf]
    exact ⟨fun h => by rw [← h, fieldsOf_wordOf], fun h => by rw [h, wordOf_fieldsOf]⟩
  rw [Row.selects, Bool.and_eq_true, beq_iff_eq, hpat]

@[simp] theorem and_15 (b : BitVec 4) : b &&& 15#4 = b := BitVec.and_allOnes

@[simp] theorem and_255 (b : BitVec 8) : b &&& 255#8 = b := BitVec.and_allOnes

/-- The bits R58's conditions speak of are the destination and immediate fields. -/
theorem extractLsb'_wordOf (f : Fields) :
    (wordOf f).extractLsb' 20 4 = f.rd ∧ (wordOf f).extractLsb' 16 4 = f.rd2 ∧ (wordOf f).extractLsb' 12 4 = f.rd3
      ∧ (wordOf f).extractLsb' 0 4 = f.imm := by
  have h := fieldsOf_wordOf f
  exact ⟨congrArg Fields.rd h, congrArg Fields.rd2 h, congrArg Fields.rd3 h, congrArg Fields.imm h⟩

/-- A word that a row selects decodes to a command with the row's mnemonic: the row's mask fixes the operation code and the fields
that the decoder's arm wants zero, and its condition is the arm's check. -/
theorem decodeFields_of_selects (f : Fields) :
    ∀ r ∈ rows, r.selects (wordOf f) = true → ∃ i, decodeFields f = .ok i ∧ i.mnemonic = r.mnemonic := by
  obtain ⟨opc, rd, rd2, rd3, rs1, rs2, imm⟩ := f
  simp only [rows, List.forall_mem_cons, selects_wordOf, extractLsb'_wordOf, Fields.masked, fieldsOf, BitVec.reduceExtractLsb',
    and_255, and_15, BitVec.and_zero, Fields.mk.injEq, and_true, and_imp, true_imp_iff, decide_eq_true_eq, bne_iff_ne,
    Bool.and_eq_true, List.not_mem_nil, IsEmpty.forall_iff, implies_true]
  refine ⟨?_, ?_, ?_, ?_, ?_, ?_, ?_, ?_, ?_, ?_, ?_, ?_, ?_⟩
  case refine_6 => -- LDC
    rintro rfl rfl rfl rfl rfl hk
    obtain ⟨k, rfl⟩ := exists_selectorBits_eq hk
    exact ⟨.ldc (regOf rd) k, decodeLdc_eq_ok.2 ⟨k, rfl, rfl⟩, rfl⟩
  case refine_11 => -- DIV
    rintro rfl rfl rfl hne
    exact ⟨_, decodeDiv_eq_ok.2 ⟨hne, rfl⟩, rfl⟩
  case refine_13 => -- XGCD
    rintro rfl rfl hne hne' hne''
    exact ⟨_, decodeXgcd_eq_ok.2 ⟨by simp [hne, hne', hne''], rfl⟩, rfl⟩
  all_goals
    intros
    subst_vars
    exact ⟨_, rfl, rfl⟩

theorem decode_of_selects {u : Word} {r : Row} (hr : r ∈ rows) (hs : r.selects u = true) :
    ∃ i, decode u = .ok i ∧ i.mnemonic = r.mnemonic :=
  decodeFields_of_selects (fieldsOf u) r hr (by rwa [wordOf_fieldsOf])

/-- A well-formed command's word is selected by a row, the one with the command's operation code. -/
theorem exists_row_selects_encode {i : Instr} (h : i.wellFormed = true) : ∃ r ∈ rows, r.selects (encode i) = true := by
  simp only [rows, List.exists_mem_cons_iff, encode, selects_wordOf, extractLsb'_wordOf]
  cases i with
  | ldc rd k => cases k <;> simp [Fields.masked, fieldsOf, encodeFields, selectorBits]
  | div => simpa [Fields.masked, fieldsOf, encodeFields, Instr.wellFormed] using h
  | xgcd => simpa [Fields.masked, fieldsOf, encodeFields, Instr.wellFormed] using h
  | _ => simp [Fields.masked, fieldsOf, encodeFields]

end Sys2Proof

namespace Sys2Proof.Machine

open Sys2Proof

/-- Settles O6: a field is the word shifted down and cut off; the other way is `toNat_wordOf`. -/
theorem fieldsStandAtTheBitsOfR53 : Obligations.FieldsStandAtTheBitsOfR53 := by
  refine ⟨fun u => ?_, fun opc rd rd2 rd3 rs1 rs2 imm => toNat_wordOf ⟨opc, rd, rd2, rd3, rs1, rs2, imm⟩⟩
  simp only [fieldsOf, BitVec.extractLsb'_toNat, Nat.shiftRight_eq_div_pow, true_and]
  have := u.isLt
  omega

/-- Settles O7: `decode_encode`, the fields of a word read back and then decoded command by command. -/
theorem decodeOfEncodeIsTheCommand : Obligations.DecodeOfEncodeIsTheCommand := fun _ => decode_encode

/-- Settles O8: the word is made of its fields, which are those of the command. -/
theorem encodeOfDecodeIsTheWord : Obligations.EncodeOfDecodeIsTheWord := by
  intro u i h
  obtain ⟨hf, hwf⟩ := encodeFields_of_decodeFields h
  exact ⟨by rw [encode, hf, wordOf_fieldsOf], hwf⟩

/-- A legal word is the encoding of its command, which a row selects; a selected word decodes (R58). -/
theorem isLegal_iff_selects (u : Word) : isLegal u = true ↔ ∃ r ∈ rows, r.selects u = true := by
  rw [isLegal_iff]
  constructor
  · rintro ⟨i, hi⟩
    obtain ⟨rfl, hwf⟩ := encodeOfDecodeIsTheWord u i hi
    exact exists_row_selects_encode hwf
  · rintro ⟨r, hr, hs⟩
    obtain ⟨i, hi, -⟩ := decode_of_selects hr hs
    exact ⟨i, hi⟩

/-- Settles O9: a word decodes to one command only, so a selected word's command is its row's; the CMD write of a word that no row
selects is R41's illegal case. -/
theorem legalWordsAreThoseOfR58 : Obligations.LegalWordsAreThoseOfR58 := by
  refine ⟨isLegal_iff_selects, fun u r hr i hs hi => ?_, fun s u rest hp hf hport hno => ?_⟩
  · obtain ⟨j, hj, hm⟩ := decode_of_selects hr hs
    cases hi.symm.trans hj
    exact hm
  · have hill : isLegal u = false := by
      rw [← Bool.not_eq_true, isLegal_iff_selects]
      rintro ⟨r, hr, hs⟩
      exact Bool.false_ne_true ((hno r hr).symm.trans hs)
    obtain ⟨-, hillegal, -⟩ := commandWriteFollowsR41 s u rest hp hport
    exact hillegal hf hill

/-- Settles O10: fifteen fixed words, evaluated. -/
theorem wordsOfTheSpecDecode : Obligations.WordsOfTheSpecDecode := by
  unfold Obligations.WordsOfTheSpecDecode; decide

end Sys2Proof.Machine
end

section
/-! Proofs of the statements of 40_ring_ops.md: the effect and encoding of each ring command (R72 to R77), and the laws of what they
write: arithmetic modulo `2^32` (R66, R68), the ring laws (R78) and the laws of the norm (R79). -/

namespace Sys2Proof.Machine

open Sys2Proof

/-! ### What is written, as arithmetic on the stored words (R66, R68) -/

theorem GReg.wrapped_add (x y : GReg) : (x.val.add y.val).wrapped = ⟨x.re + y.re, x.im + y.im⟩ := by
  simp only [Gauss.wrapped, Gauss.add, GReg.val, wrap32_add]

theorem GReg.wrapped_sub (x y : GReg) : (x.val.sub y.val).wrapped = ⟨x.re - y.re, x.im - y.im⟩ := by
  simp only [Gauss.wrapped, Gauss.sub, GReg.val, wrap32, ofInt_sub, BitVec.ofInt_toInt]

theorem GReg.wrapped_mul (x y : GReg) :
    (x.val.mul y.val).wrapped = ⟨x.re * y.re - x.im * y.im, x.re * y.im + x.im * y.re⟩ := by
  simp only [Gauss.wrapped, Gauss.mul, GReg.val, wrap32, ofInt_sub, BitVec.ofInt_add, BitVec.ofInt_mul, BitVec.ofInt_toInt]

theorem GReg.wrapped_conj (x : GReg) : x.val.conj.wrapped = ⟨x.re, -x.im⟩ := by
  simp only [Gauss.wrapped, Gauss.conj, GReg.val, wrap32_toInt, wrap32_neg]

/-- The contents of a register after a command that ends by writing it with `writeG`. -/
theorem State.finish_writeG_same (s : State) (k : Reg) (v : Gauss) : (s.writeG k v).finish.g[k] = v.wrapped := by
  simp

/-- Settles O39: each command ends in `writeG`, whose wrapped value is that arithmetic. -/
theorem ringResultsAreArithmeticModulo2To32 : Obligations.RingResultsAreArithmeticModulo2To32 := by
  intro s rd rs1 rs2
  exact ⟨_, _, _, _, rfl, rfl, rfl, rfl,
    (s.finish_writeG_same rd _).trans (GReg.wrapped_add _ _),
    (s.finish_writeG_same rd _).trans (GReg.wrapped_sub _ _),
    (s.finish_writeG_same rd _).trans (GReg.wrapped_mul _ _),
    (s.finish_writeG_same rd _).trans (GReg.wrapped_conj _)⟩

/-! ### The ring laws (R78) -/

theorem Gauss.wrapped_zero : Gauss.zero.wrapped = ⟨0, 0⟩ := rfl

theorem Gauss.wrapped_one : Gauss.one.wrapped = ⟨1, 0⟩ := rfl

/-- Settles O40: the commands compute on the stored words, which are a commutative ring, so each law is one equation of that ring per
component. -/
theorem writtenValuesSatisfyTheRingLaws : Obligations.WrittenValuesSatisfyTheRingLaws := by
  intro ⟨a, b⟩ ⟨c, d⟩ ⟨e, f⟩
  simp only [GReg.wrapped_add, GReg.wrapped_sub, GReg.wrapped_mul, GReg.wrapped_conj, Gauss.wrapped_zero, Gauss.wrapped_one]
  refine ⟨?_, ?_, ?_, ?_, ?_, ?_, ?_, ?_, ?_, ?_, ?_, ?_⟩ <;> congr 1 <;> ring

/-! ### The laws of the norm (R79) -/

/-- The norm of a product of exact values is the product of the norms. -/
theorem Gauss.norm_mul (x y : Gauss) : (x.mul y).norm = x.norm * y.norm := by
  simp only [Gauss.norm, Gauss.mul]; ring

/-- WRAP stays 0 only when the exact result is representable (R65). -/
theorem fits_of_wrapFlag_eq_false {old : Bool} {v : Gauss} (h : wrapFlag old v = false) : v.fits := by
  by_contra hv
  exact absurd (wrapFlag_of_not_fits old hv) (by simp [h])

/-- A representable value written with `writeG` is read back as it is. -/
theorem State.readG_writeG_same_of_fits (s : State) (k : Reg) {v : Gauss} (h : v.fits) : (s.writeG k v).readG k = v := by
  rw [State.readG_writeG, if_pos rfl, Gauss.wrapped_val h]

/-- The 64 bits of NORM hold the norm of a representable value, untruncated (R76). -/
theorem toNat_written_norm {x : Gauss} (h : x.fits) : ((BitVec.ofInt 64 x.norm).toNat : Int) = x.norm := by
  have h0 := x.norm_nonneg
  have h1 := Gauss.norm_le_of_fits h
  rw [BitVec.toNat_ofInt]; omega

/-- Settles O41: WRAP left 0 says that the exact product was representable, so NORM reads the exact product. -/
theorem normLawsHoldWhereMulDoesNotWrap : Obligations.NormLawsHoldWhereMulDoesNotWrap := by
  refine ⟨fun x => ⟨x.val.norm_nonneg, x.val.norm_eq_zero⟩, fun s rd rs1 rs2 _ t ht hwrap => ⟨_, rfl, ?_⟩⟩
  cases ht
  have hfits : ((s.readG rs1).mul (s.readG rs2)).fits := fits_of_wrapFlag_eq_false hwrap
  rw [State.finish_norm, State.writeNorm_norm, State.readG_finish, s.readG_writeG_same_of_fits rd hfits,
    toNat_written_norm hfits, Gauss.norm_mul]

/-! ### Encodings and effects (R72 to R77) -/

/-- The next state of a command that ends by writing `G[k]` with `writeG` (R65). -/
theorem State.finish_writeG (s : State) (k : Reg) (v : Gauss) :
    (s.writeG k v).finish = { s with
      g := s.g.set k v.wrapped, wrap := s.wrap || decide (¬ v.fits), pending := none, busy := false, busyFor := 0 } := by
  rw [decide_not]; rfl

/-- Settles O33: the wrapped sum of `execAdd`. -/
theorem addWritesTheWrappedSum : Obligations.AddWritesTheWrappedSum := fun rd rs1 rs2 =>
  ⟨decode_encode (i := .add rd rs1 rs2) rfl, fun s => congrArg Host.Outcome.next (s.finish_writeG _ _)⟩

/-- Settles O34: the wrapped difference of `execSub`. -/
theorem subWritesTheWrappedDifference : Obligations.SubWritesTheWrappedDifference := fun rd rs1 rs2 =>
  ⟨decode_encode (i := .sub rd rs1 rs2) rfl, fun s => congrArg Host.Outcome.next (s.finish_writeG _ _)⟩

/-- Settles O35: the wrapped product of `execMul`, at the operands read. -/
theorem mulWritesTheWrappedProduct : Obligations.MulWritesTheWrappedProduct := by
  refine fun rd rs1 rs2 => ⟨decode_encode (i := .mul rd rs1 rs2) rfl, fun s a b c d hx hy => ?_⟩
  rw [exec, execMul, hx, hy, State.finish_writeG]; rfl

/-- Of the representable values only those with imaginary part `-2^31` have a conjugate that is not representable (R75). -/
theorem Gauss.not_fits_conj_iff {x : Gauss} (h : x.fits) : ¬ x.conj.fits ↔ x.im = -2 ^ 31 := by
  obtain ⟨hre, him⟩ := h
  simp only [Gauss.fits, Gauss.conj]
  omega

/-- Settles O36: `execConj` writes the conjugate, and `not_fits_conj_iff` says when WRAP is set. -/
theorem conjNegatesTheImaginaryPart : Obligations.ConjNegatesTheImaginaryPart := by
  refine fun rd rs1 => ⟨decode_encode (i := .conj rd rs1) rfl, fun s => ?_⟩
  rw [exec, execConj, State.finish_writeG]
  simp only [Gauss.not_fits_conj_iff (s.readG_fits rs1)]; rfl

/-- Settles O37: the 64 bits written hold the norm exactly. -/
theorem normWritesTheExactNorm : Obligations.NormWritesTheExactNorm := fun rs1 =>
  ⟨decode_encode (i := .norm rs1) rfl, fun s =>
    ⟨_, rfl, toNat_written_norm (s.readG_fits rs1), toNat_written_norm_le (s.readG_fits rs1)⟩⟩

/-- A selector above 2 names no constant (R55). -/
theorem selectorOf_eq_error {k : BitVec 4} (h : 3 ≤ k.toNat) : selectorOf k = .error .badSelector := by
  revert k; decide

/-- Settles O38: the three words are encodings of LDC, and `selectorOf` rejects the other selectors. -/
theorem ldcLoadsTheConstant : Obligations.LdcLoadsTheConstant := by
  refine fun rd => ⟨fun s => ⟨rfl, rfl, rfl⟩, decode_encode (i := .ldc rd .zero) rfl, decode_encode (i := .ldc rd .one) rfl,
    decode_encode (i := .ldc rd .i) rfl, fun k hk => ?_⟩
  have hdecode : decode (wordOf ⟨0x06#8, regBits rd, 0#4, 0#4, 0#4, 0#4, k⟩) = .error .badSelector := by
    rw [decode, fieldsOf_wordOf]
    simp [decodeFields, ifZero, decodeLdc, selectorOf_eq_error hk]
  rw [isLegal, hdecode]

end Sys2Proof.Machine
end

section
/-! Proofs of the statements of 41_predicates.md: the effect and encoding of each predicate command (R80 to R83), the units (R85), and
the equivalence ISASSOC tests (R84), which is Mathlib's `Associated` on Gaussian integers. -/

namespace Sys2Proof.Machine

open Sys2Proof

/-! ### Encodings and effects of EQ and ISZERO (R80, R81) -/

/-- The next state of a command that ends by writing PRED with a bit that decides `p`. -/
theorem State.next_writePred (s : State) {b : Bool} {p : Prop} [Decidable p] (h : b = true ↔ p) :
    (.next (s.writePred b).finish : Outcome)
      = .next { s with pred := decide p, pending := none, busy := false, busyFor := 0 } := by
  rw [Bool.eq_iff_iff.2 (h.trans decide_eq_true_iff.symm)]; rfl

/-- Settles O42: equal exact values are equal contents. -/
theorem eqTestsEquality : Obligations.EqTestsEquality := fun rs1 rs2 =>
  ⟨decode_encode (i := .eq rs1 rs2) rfl, fun s => s.next_writePred ((predEq_iff _ _).trans GReg.val_inj)⟩

/-- The contents of a register with value zero are two zero words. -/
theorem GReg.val_eq_zero {x : GReg} : x.val = Gauss.zero ↔ x = ⟨0#32, 0#32⟩ :=
  GReg.val_inj (y := ⟨0#32, 0#32⟩)

/-- Settles O43: the value is zero exactly when both words are. -/
theorem iszeroTestsForZero : Obligations.IszeroTestsForZero := fun rs1 =>
  ⟨decode_encode (i := .iszero rs1) rfl, fun s => s.next_writePred ((Gauss.isZero_iff _).trans GReg.val_eq_zero)⟩

/-! ### The units (R82, R85) -/

theorem predIsUnit_iff (x : Gauss) : predIsUnit x = true ↔ x.norm = 1 := beq_iff_eq

/-- The values of norm 1 are the four units: both components lie between -1 and 1. -/
theorem Gauss.norm_eq_one_iff (x : Gauss) :
    x.norm = 1 ↔ x = ⟨1, 0⟩ ∨ x = ⟨-1, 0⟩ ∨ x = ⟨0, 1⟩ ∨ x = ⟨0, -1⟩ := by
  obtain ⟨a, b⟩ := x
  simp only [Gauss.norm, Gauss.mk.injEq]
  constructor
  · intro h
    obtain ⟨ha, ha'⟩ := abs_le_of_sq_le_sq' (a := a) (b := 1) (by nlinarith [sq_nonneg b]) (by decide)
    obtain ⟨hb, hb'⟩ := abs_le_of_sq_le_sq' (a := b) (b := 1) (by nlinarith [sq_nonneg a]) (by decide)
    interval_cases a <;> interval_cases b <;> simp_all
  · rintro (⟨rfl, rfl⟩ | ⟨rfl, rfl⟩ | ⟨rfl, rfl⟩ | ⟨rfl, rfl⟩) <;> rfl

/-- Settles O44: `predIsUnit` tests for norm 1, which only the four units have. -/
theorem isunitTestsForTheFourUnits : Obligations.IsunitTestsForTheFourUnits := fun rs1 =>
  ⟨decode_encode (i := .isunit rs1) rfl, fun s =>
    ⟨s.next_writePred ((predIsUnit_iff _).trans (Gauss.norm_eq_one_iff _)), s.next_writePred (predIsUnit_iff _)⟩⟩

/-! ### Associates (R83, R84) -/

/-- The four comparisons of `predIsAssoc` are with the exact products by the four units. -/
theorem predIsAssoc_iff (x y : Gauss) :
    predIsAssoc x y = true ↔ x = y.mul ⟨1, 0⟩ ∨ x = y.mul ⟨-1, 0⟩ ∨ x = y.mul ⟨0, 1⟩ ∨ x = y.mul ⟨0, -1⟩ := by
  simp [predIsAssoc, Gauss.mul, or_assoc]

/-- Settles O45: `predIsAssoc` compares with the four products. -/
theorem isassocTestsForAssociates : Obligations.IsassocTestsForAssociates := fun rs1 rs2 =>
  ⟨decode_encode (i := .isassoc rs1 rs2) rfl, fun s => s.next_writePred (predIsAssoc_iff _ _)⟩

/-- The units of the ring of Gaussian integers are the values of norm 1 (R85). -/
theorem Gauss.isUnit_toGI_iff (u : Gauss) : IsUnit u.toGI ↔ u.norm = 1 := by
  rw [← Zsqrtd.norm_eq_one_iff' (by decide)]
  simp [Zsqrtd.norm, Gauss.toGI, Gauss.norm]

/-- One value is an associate of another exactly when it is that other times a unit. -/
theorem predIsAssoc_iff_exists_unit (x y : Gauss) : predIsAssoc x y = true ↔ ∃ u : Gauss, u.norm = 1 ∧ x = y.mul u := by
  simp only [predIsAssoc_iff, Gauss.norm_eq_one_iff, or_and_right, exists_or, exists_eq_left]

/-- ISASSOC's relation is the one Mathlib calls `Associated`. -/
theorem predIsAssoc_iff_associated (x y : Gauss) : predIsAssoc x y = true ↔ Associated y.toGI x.toGI := by
  rw [predIsAssoc_iff_exists_unit]
  constructor
  · rintro ⟨u, hu, rfl⟩
    rw [Gauss.toGI_mul]
    exact associated_mul_unit_right _ _ (u.isUnit_toGI_iff.2 hu)
  · rintro ⟨u, hu⟩
    let v : Gauss := ⟨u.val.re, u.val.im⟩
    have hmul : x.toGI = (y.mul v).toGI := by rw [Gauss.toGI_mul]; exact hu.symm
    exact ⟨v, v.isUnit_toGI_iff.1 u.isUnit, Gauss.toGI_injective hmul⟩

theorem Gauss.toGI_eq_zero {x : Gauss} : x.toGI = 0 ↔ x = Gauss.zero :=
  ⟨fun h => Gauss.toGI_injective h, fun h => congrArg Gauss.toGI h⟩

/-- Settles O46: `Associated` is an equivalence, and only zero is associated to zero. -/
theorem associatesFormAnEquivalence : Obligations.AssociatesFormAnEquivalence := by
  intro x y z
  simp only [predIsAssoc_iff_associated]
  refine ⟨.refl _, .symm, fun hxy hyz => hyz.trans hxy, ?_, ?_⟩
  · rw [Gauss.toGI_zero, Associated.comm, associated_zero_iff_eq_zero, Gauss.toGI_eq_zero]
  · rw [Gauss.toGI_zero, associated_zero_iff_eq_zero, Gauss.toGI_eq_zero]

end Sys2Proof.Machine
end

section
/-! Proofs of the statements of 42_division.md: rounding to nearest (R89, R90), the division function and its remainder bound (R91,
R93), what the quotient depends on (R98), DIV (R92, R94, R97), and where a remainder is out of range (R96). -/

namespace Sys2Proof.Machine

open Sys2Proof

/-! ### Rounding to nearest (R89, R90)

The residue `p - f*m` of a candidate `f` says how far `f` is from `p / m`. The floor's residue lies in `[0, m)`, and the three cases of
`roundq` compare it with `m / 2`. -/

/-- The residue of the floor is not negative and less than `m`. -/
theorem floor_residue_bounds (p : Int) {m : Int} (hm : 0 < m) : 0 ≤ p - p / m * m ∧ p - p / m * m < m :=
  have hmod : p - p / m * m = p % m := by rw [Int.emod_def, Int.mul_comm]
  hmod ▸ ⟨Int.emod_nonneg p hm.ne', Int.emod_lt_of_pos p hm⟩

/-- A candidate whose residue is in `[0, m)` is the floor. -/
theorem floor_eq_of_residue {p m f : Int} (h0 : 0 ≤ p - f * m) (h1 : p - f * m < m) : p / m = f := by
  rw [Int.ediv_eq_iff_of_pos (by omega)]
  constructor <;> linarith

/-- A tie takes one of the two nearest integers, whatever the rule (R90). -/
theorem tie_eq_or (t : TieRule) (p f : Int) : tie t p f = f ∨ tie t p f = f + 1 := by
  cases t <;> simp only [tie] <;> split <;> simp

/-- Exactly halfway between `f` and `f + 1` the tie rule decides (R89). -/
theorem roundq_eq_tie (t : TieRule) {p m f : Int} (hm : 0 < m) (h : 2 * (p - f * m) = m) :
    roundq t p m = tie t p f := by
  have hf : p / m = f := floor_eq_of_residue (by omega) (by omega)
  rw [roundq, hf, if_neg (by omega), if_neg (by omega)]

/-- An integer strictly nearer than `1/2` is the one taken: it is the floor when its residue is not negative, and otherwise the floor
is the integer below it (R89). -/
theorem roundq_eq_of_nearer_than_half (t : TieRule) {p m q : Int} (h0 : -m < 2 * (p - q * m))
    (h1 : 2 * (p - q * m) < m) : roundq t p m = q := by
  by_cases hq : 0 ≤ p - q * m
  · have hf : p / m = q := floor_eq_of_residue hq (by omega)
    rw [roundq, hf, if_pos h1]
  · have hres : p - (q - 1) * m = p - q * m + m := by ring
    have hf : p / m = q - 1 := floor_eq_of_residue (by omega) (by omega)
    rw [roundq, hf, if_neg (by omega), if_pos (by omega), Int.sub_add_cancel]

/-- The integer taken is within `1/2` of `p / m` (R89). -/
theorem roundq_residue_bounds (t : TieRule) (p : Int) {m : Int} (hm : 0 < m) :
    -m ≤ 2 * (p - roundq t p m * m) ∧ 2 * (p - roundq t p m * m) ≤ m := by
  obtain ⟨h0, h1⟩ := floor_residue_bounds p hm
  have hup : p - (p / m + 1) * m = p - p / m * m - m := by ring
  by_cases hlow : 2 * (p - p / m * m) < m
  · rw [roundq, if_pos hlow]; omega
  · by_cases hhigh : m < 2 * (p - p / m * m)
    · rw [roundq, if_neg hlow, if_pos hhigh]; omega
    · rw [roundq, if_neg hlow, if_neg hhigh]
      obtain h | h := tie_eq_or t p (p / m) <;> rw [h] <;> omega

/-- Settles O47: the bound, the strictly nearest integer, and `tie` under each of the two rules. -/
theorem roundingIsToNearestWithTheTieRule : Obligations.RoundingIsToNearestWithTheTieRule := by
  intro t p m hm
  exact ⟨roundq_residue_bounds t p hm, fun q h0 h1 => roundq_eq_of_nearer_than_half t h0 h1, fun f hf =>
    ⟨roundq_eq_tie .halfAwayFromZero hm hf, roundq_eq_tie .halfToEven hm hf⟩⟩

/-- `roundq` depends on the rational `p / m` only. -/
theorem roundq_mul_mul_left (t : TieRule) (p m : Int) {c : Int} (hc : 0 < c) :
    roundq t (c * p) (c * m) = roundq t p m := by
  have hres : 2 * (c * p - p / m * (c * m)) = c * (2 * (p - p / m * m)) := by ring
  have htie : tie t (c * p) (p / m) = tie t p (p / m) := by simp only [tie, mul_pos_iff_of_pos_left hc]
  simp only [roundq, Int.mul_ediv_mul_of_pos p m hc, hres, htie, Int.mul_lt_mul_left hc]

/-! ### The division function (R88, R91) -/

theorem Gauss.norm_pos {d : Gauss} (hd : d ≠ Gauss.zero) : 0 < d.norm :=
  lt_of_le_of_ne d.norm_nonneg fun h => hd (d.norm_eq_zero.1 h.symm)

theorem Gauss.norm_conj (d : Gauss) : d.conj.norm = d.norm := by
  simp only [Gauss.norm, Gauss.conj]; ring

/-- `quotRe` and `quotIm` are the coordinates of the rationalised numerator (R88). -/
theorem Gauss.mul_conj (n d : Gauss) : n.mul d.conj = ⟨quotRe n d, quotIm n d⟩ := by
  simp only [Gauss.mul, Gauss.conj, quotRe, quotIm, Gauss.mk.injEq]
  constructor <;> ring

/-- Settles O48: `Gauss.mul_conj` for the quotient's coordinates, `remG_spec` for the remainder. -/
theorem divisionFollowsR91 : Obligations.DivisionFollowsR91 := by
  intro t n d hd
  refine ⟨Gauss.norm_pos hd, ?_, remG_spec t n d⟩
  rw [Gauss.mul_conj]; rfl

/-! ### The remainder bound (R93) -/

/-- Times `conj(d)`, the remainder is the pair of residues of the two roundings. -/
theorem remG_mul_conj (t : TieRule) (n d : Gauss) :
    (remG t n d).mul d.conj =
      ⟨quotRe n d - (quotG t n d).re * d.norm, quotIm n d - (quotG t n d).im * d.norm⟩ := by
  simp only [remG, Gauss.mk.injEq, quotRe, quotIm, Gauss.sub, Gauss.mul, Gauss.conj, Gauss.norm]
  constructor <;> ring

/-- The remainder's norm is at most half the divisor's: over `N(d)`, it is the sum of the squares of two residues of at most
`N(d)/2`. -/
theorem two_mul_norm_remG_le (t : TieRule) (n : Gauss) {d : Gauss} (hd : d ≠ Gauss.zero) :
    2 * (remG t n d).norm ≤ d.norm := by
  have hN := Gauss.norm_pos hd
  obtain ⟨hre0, hre1⟩ := roundq_residue_bounds t (quotRe n d) hN
  obtain ⟨him0, him1⟩ := roundq_residue_bounds t (quotIm n d) hN
  have hre := sq_le_sq' hre0 hre1
  have him := sq_le_sq' him0 him1
  have hprod : (remG t n d).norm * d.norm =
      (quotRe n d - roundq t (quotRe n d) d.norm * d.norm) ^ 2
        + (quotIm n d - roundq t (quotIm n d) d.norm * d.norm) ^ 2 := by
    calc (remG t n d).norm * d.norm = ((remG t n d).mul d.conj).norm := by rw [Gauss.norm_mul, Gauss.norm_conj]
      _ = _ := by rw [remG_mul_conj, Gauss.norm, ← sq, ← sq]; rfl
  exact le_of_mul_le_mul_right (by linarith) hN

/-- Settles O49: `two_mul_norm_remG_le`, and its two weaker forms. -/
theorem remainderNormIsAtMostHalf : Obligations.RemainderNormIsAtMostHalf := by
  intro t n d hd
  have hhalf := two_mul_norm_remG_le t n hd
  have h0 := (remG t n d).norm_nonneg
  have hN := Gauss.norm_pos hd
  exact ⟨remG_spec t n d, hhalf, by omega, by omega⟩

/-! ### What the quotient depends on (R98) -/

theorem Gauss.mul_ne_zero {x y : Gauss} (hx : x ≠ Gauss.zero) (hy : y ≠ Gauss.zero) : x.mul y ≠ Gauss.zero := by
  rw [Ne, ← Gauss.norm_eq_zero, Gauss.norm_mul]
  exact (Int.mul_pos (norm_pos hx) (norm_pos hy)).ne'

/-- Equal ratios have equal rationalised numerators, each over the other's norm. -/
theorem quot_cross_mul {n d n' d' : Gauss} (h : n.mul d' = n'.mul d) :
    d.norm * quotRe n' d' = d'.norm * quotRe n d ∧ d.norm * quotIm n' d' = d'.norm * quotIm n d := by
  obtain ⟨hre, him⟩ := Gauss.mk.inj h
  simp only [Gauss.norm, quotRe, quotIm]
  constructor
  · linear_combination -(d.re * d'.re - d.im * d'.im) * hre - (d.re * d'.im + d.im * d'.re) * him
  · linear_combination (d.re * d'.im + d.im * d'.re) * hre - (d.re * d'.re - d.im * d'.im) * him

/-- The quotient is a function of the ratio. -/
theorem quotG_congr (t : TieRule) {n d n' d' : Gauss} (hd : d ≠ Gauss.zero) (hd' : d' ≠ Gauss.zero)
    (h : n.mul d' = n'.mul d) : quotG t n' d' = quotG t n d := by
  have hround {p p' : Int} (hp : d.norm * p' = d'.norm * p) : roundq t p' d'.norm = roundq t p d.norm := by
    rw [← roundq_mul_mul_left t p' _ (Gauss.norm_pos hd), hp, Int.mul_comm d.norm,
      roundq_mul_mul_left t p _ (Gauss.norm_pos hd')]
  obtain ⟨hre, him⟩ := quot_cross_mul h
  rw [quotG, quotG, hround hre, hround him]

/-- A multiple of the divisor has that multiple as quotient. -/
theorem quotG_mul (t : TieRule) {d : Gauss} (hd : d ≠ Gauss.zero) (k : Gauss) : quotG t (d.mul k) d = k := by
  have hN := Gauss.norm_pos hd
  have hround (c : Int) : roundq t (c * d.norm) d.norm = c :=
    roundq_eq_of_nearer_than_half t (by omega) (by omega)
  have hre : quotRe (d.mul k) d = k.re * d.norm := by simp only [quotRe, Gauss.mul, Gauss.norm]; ring
  have him : quotIm (d.mul k) d = k.im * d.norm := by simp only [quotIm, Gauss.mul, Gauss.norm]; ring
  rw [quotG, hre, him, hround, hround]

/-- Settles O52: the quotient is a function of the ratio, which a common factor leaves; the remainder is then linear. -/
theorem quotientDependsOnTheRatioOnly : Obligations.QuotientDependsOnTheRatioOnly := by
  intro t n d hd
  refine ⟨fun n' d' hd' h => quotG_congr t hd hd' h, fun u hu => ?_, fun k => ⟨quotG_mul t hd k, ?_⟩⟩
  · have hu0 : u ≠ Gauss.zero := fun h => by simp [h, Gauss.norm, Gauss.zero] at hu
    have hratio : n.mul (d.mul u) = (n.mul u).mul d := Gauss.toGI_injective (by simp only [Gauss.toGI_mul]; ring)
    have hq := quotG_congr t hd (Gauss.mul_ne_zero hd hu0) hratio
    refine ⟨hq, Gauss.toGI_injective ?_⟩
    simp only [remG, hq, Gauss.toGI_sub, Gauss.toGI_mul]; ring
  · apply Gauss.toGI_injective
    rw [remG, quotG_mul t hd, Gauss.toGI_sub, sub_self]; rfl

/-! ### DIV (R92, R94, R97) -/

/-- DIV by zero (R97). -/
theorem exec_div_of_zero (rd rd2 rs1 : Reg) {rs2 : Reg} {s : State} (hd : s.readG rs2 = Gauss.zero) :
    exec (.div rd rd2 rs1 rs2) s = .next (s.raiseCmd .divzero (.div rd rd2 rs1 rs2)) :=
  if_pos ((Gauss.isZero_iff _).2 hd)

/-- DIV with a result that does not fit (R96). -/
theorem exec_div_of_not_fits (rd rd2 : Reg) {rs1 rs2 : Reg} {s : State} (hd : s.readG rs2 ≠ Gauss.zero)
    (h : ¬ ((quotG Config.tieRule (s.readG rs1) (s.readG rs2)).fits
      ∧ (remG Config.tieRule (s.readG rs1) (s.readG rs2)).fits)) :
    exec (.div rd rd2 rs1 rs2) s = .next (s.raiseCmd .range (.div rd rd2 rs1 rs2)) :=
  (if_neg (mt (Gauss.isZero_iff _).1 hd)).trans (if_neg h)

/-- DIV with results that fit (R92). -/
theorem exec_div_of_fits (rd rd2 : Reg) {rs1 rs2 : Reg} {s : State} (hd : s.readG rs2 ≠ Gauss.zero)
    (hq : (quotG Config.tieRule (s.readG rs1) (s.readG rs2)).fits)
    (hr : (remG Config.tieRule (s.readG rs1) (s.readG rs2)).fits) :
    exec (.div rd rd2 rs1 rs2) s = .next ((s.putG rd (quotG Config.tieRule (s.readG rs1) (s.readG rs2))).putG rd2
      (remG Config.tieRule (s.readG rs1) (s.readG rs2))).finish :=
  (if_neg (mt (Gauss.isZero_iff _).1 hd)).trans (if_pos ⟨hq, hr⟩)

/-- A representable value written with `putG` is read back as it is. -/
theorem State.readG_putG_same_of_fits (s : State) (k : Reg) {v : Gauss} (h : v.fits) : (s.putG k v).readG k = v := by
  rw [State.readG_putG, if_pos rfl, Gauss.wrapped_val h]

/-- Writing one register with `putG` leaves what another is read as. -/
theorem State.readG_putG_other (s : State) {k j : Reg} (v : Gauss) (h : k ≠ j) : (s.putG k v).readG j = s.readG j := by
  rw [State.readG_putG, if_neg h]

/-- Settles O50: the three ends of DIV; the quotient survives the write of the remainder because the destinations differ. -/
theorem divFollowsR92 : Obligations.DivFollowsR92 := by
  intro rd rd2 rs1 rs2 hne
  refine ⟨decode_encode (i := .div rd rd2 rs1 rs2) (bne_iff_ne.2 hne), ?_⟩
  rintro s _ _ _ _ rfl rfl rfl rfl
  refine ⟨exec_div_of_zero rd rd2 rs1, exec_div_of_not_fits rd rd2, fun hd hq hr =>
    ⟨_, exec_div_of_fits rd rd2 hd hq hr, rfl, ?_, ?_, fun k hk hk2 => ?_⟩⟩
  · rw [State.readG_finish, State.readG_putG_other _ _ hne.symm, State.readG_putG_same_of_fits _ _ hq]
  · rw [State.readG_finish, State.readG_putG_same_of_fits _ _ hr]
  · rw [State.finish_g, State.putG_g, g_set_other _ _ _ _ hk2, State.putG_g, g_set_other _ _ _ _ hk]

/-- Settles O51: with no fault recorded after it DIV ended by writing, and what it wrote are the quotient and the remainder. -/
theorem divWritesAnExactIdentity : Obligations.DivWritesAnExactIdentity := by
  intro s t rd rd2 rs1 rs2 hne _ hexec hfault
  obtain ⟨-, hdiv⟩ := divFollowsR92 rd rd2 rs1 rs2 hne
  obtain ⟨hzero, hrange, hwrite⟩ := hdiv s _ _ _ _ rfl rfl rfl rfl
  by_cases hd : s.readG rs2 = Gauss.zero
  · cases (hzero hd).symm.trans hexec
    simp at hfault
  · by_cases hfits : (quotG Config.tieRule (s.readG rs1) (s.readG rs2)).fits
        ∧ (remG Config.tieRule (s.readG rs1) (s.readG rs2)).fits
    · obtain ⟨t', hexec', -, hq, hr, -⟩ := hwrite hd hfits.1 hfits.2
      cases hexec'.symm.trans hexec
      rw [hq, hr]
      exact ⟨remG_spec _ _ _, two_mul_norm_remG_le _ _ hd⟩
    · cases (hrange hd hfits).symm.trans hexec
      simp at hfault

/-! ### Remainders out of range (R96) -/

/-- The largest norm of a representable value is that of `(-2^31, -2^31)` only: neither component's square exceeds `2^62`, so both must
reach it. -/
theorem Gauss.eq_of_fits_of_norm {d : Gauss} (h : d.fits) (hN : 2 ^ 63 ≤ d.norm) : d = ⟨-2 ^ 31, -2 ^ 31⟩ := by
  obtain ⟨a, b⟩ := d
  obtain ⟨⟨ha0, ha1⟩, hb0, hb1⟩ := h
  simp only [Gauss.norm] at hN ha0 ha1 hb0 hb1
  have ha : a * a ≤ 2 ^ 62 := by nlinarith
  have hb : b * b ≤ 2 ^ 62 := by nlinarith
  rw [Gauss.mk.injEq]
  constructor <;> nlinarith

/-- Of the values of norm at most `2^62` only `(2^31, 0)` and `(0, 2^31)` are not representable. -/
theorem Gauss.eq_of_not_fits_of_norm {r : Gauss} (h : ¬ r.fits) (hN : r.norm ≤ 2 ^ 62) :
    r = ⟨2 ^ 31, 0⟩ ∨ r = ⟨0, 2 ^ 31⟩ := by
  obtain ⟨a, b⟩ := r
  simp only [Gauss.norm] at hN
  simp only [Gauss.fits] at h
  obtain ⟨ha0, ha1⟩ := abs_le_of_sq_le_sq' (a := a) (b := 2 ^ 31) (by linarith [sq_nonneg b]) (by decide)
  obtain ⟨hb0, hb1⟩ := abs_le_of_sq_le_sq' (a := b) (b := 2 ^ 31) (by linarith [sq_nonneg a]) (by decide)
  obtain rfl | rfl : a = 2 ^ 31 ∨ b = 2 ^ 31 := by omega
  · have hb : b * b = 0 := le_antisymm (by linarith) (mul_self_nonneg b)
    exact .inl (by rw [mul_self_eq_zero.1 hb])
  · have ha : a * a = 0 := le_antisymm (by linarith) (mul_self_nonneg a)
    exact .inr (by rw [mul_self_eq_zero.1 ha])

/-- A representable value that leaves one of those two remainders on division by `(-2^31, -2^31)` is one of two multiples of `2^31`:
the divisor's multiples have coordinates `2^31*x` and `2^31*y` with `x + y` even. -/
theorem dividend_of_remainder_not_fits {n q r : Gauss} (hn : n.fits) (hr : r = ⟨2 ^ 31, 0⟩ ∨ r = ⟨0, 2 ^ 31⟩)
    (h : n = (Gauss.mul ⟨-2 ^ 31, -2 ^ 31⟩ q).add r) : n = ⟨-2 ^ 31, 0⟩ ∨ n = ⟨0, -2 ^ 31⟩ := by
  obtain ⟨a, b⟩ := n
  obtain ⟨x, y⟩ := q
  simp only [Gauss.fits] at hn
  obtain rfl | rfl := hr <;> simp only [Gauss.mul, Gauss.add, Gauss.mk.injEq] at h ⊢ <;> omega

/-- Under either tie rule a remainder that is not representable has the largest norm R93 allows, so the divisor has the largest norm of
all (R96 (1)). -/
theorem operands_of_remG_not_fits {t : TieRule} {n d : Gauss} (hn : n.fits) (hd : d.fits) (hd0 : d ≠ Gauss.zero)
    (h : ¬ (remG t n d).fits) : d = ⟨-2 ^ 31, -2 ^ 31⟩ ∧ (n = ⟨-2 ^ 31, 0⟩ ∨ n = ⟨0, -2 ^ 31⟩) := by
  have hhalf := two_mul_norm_remG_le t n hd0
  have hmax := Gauss.norm_le_of_fits hd
  have hr := Gauss.eq_of_not_fits_of_norm h (by omega)
  have hnorm : (remG t n d).norm = 2 ^ 62 := by obtain hr | hr := hr <;> rw [hr] <;> rfl
  obtain rfl := Gauss.eq_of_fits_of_norm hd (by omega)
  exact ⟨rfl, dividend_of_remainder_not_fits hn hr (remG_spec t n _)⟩

/-- Settles O53: `operands_of_remG_not_fits` leaves two pairs of operands, whose remainders are evaluated under each rule. -/
theorem remainderOutOfRangeOnlyAtOneDivisor : Obligations.RemainderOutOfRangeOnlyAtOneDivisor := by
  intro n d hn hd hd0
  refine ⟨?_, operands_of_remG_not_fits hn hd hd0, ?_⟩
  · by_contra h
    obtain ⟨rfl, rfl | rfl⟩ := operands_of_remG_not_fits hn hd hd0 h
    · exact h (by decide)
    · exact h (by decide)
  · rintro ⟨rfl, rfl | rfl⟩
    · decide
    · decide

end Sys2Proof.Machine
end

section
/-! Proofs of the statements of 43_gcd.md: the loops of GCD and XGCD end (R108), the commands run them (R100, R102), and what follows
for the values they write: divisibility (R101), Bézout (R103), the agreement of the two commands (R104), their range (R107) and their
faults (R109, R112). -/

namespace Sys2Proof.Machine

open Sys2Proof

/-! ### The loops end, and the engines' fuel is enough (R106, R108)

Each iteration halves the norm of the divisor (R93), so a loop whose first divisor has norm below `2^n` runs at most `n` iterations.
What is shown of XGCD's loop carries over to GCD's: `oldR` and `r` run through the same remainders (R104). -/

/-- One more unit of fuel is one iteration when the loop's test holds (R102). -/
theorem xgcdLoop_succ (t : TieRule) (n : Nat) {v : XSlots} (hr : v.r ≠ Gauss.zero) :
    xgcdLoop t (n + 1) v = xgcdLoop t n (xgcdStep t v) :=
  if_neg (mt (Gauss.isZero_iff _).1 hr)

/-- When the loop's test fails the slots stay (R102). -/
theorem xgcdLoop_of_r_eq_zero (t : TieRule) (n : Nat) {v : XSlots} (hr : v.r = Gauss.zero) : xgcdLoop t n v = v := by
  cases n with
  | zero => rfl
  | succ n => exact if_pos ((Gauss.isZero_iff _).2 hr)

/-- An iteration at least halves the norm of `r` (R93). -/
theorem norm_r_xgcdStep_lt (t : TieRule) {n : Nat} {v : XSlots} (hr : v.r ≠ Gauss.zero) (h : v.r.norm < 2 ^ (n + 1)) :
    (xgcdStep t v).r.norm < 2 ^ n := by
  have hhalf : 2 * (xgcdStep t v).r.norm ≤ v.r.norm := two_mul_norm_remG_le t v.oldR hr
  rw [pow_succ] at h
  omega

/-- With fuel for the norm of `r` the engine's loop ends where R102's does. -/
theorem xgcdRun_xgcdLoop (t : TieRule) (n : Nat) (v : XSlots) (h : v.r.norm < 2 ^ n) :
    ∃ k ≤ n, XgcdRun t k v (xgcdLoop t n v) := by
  induction n generalizing v with
  | zero =>
    have hnonneg := v.r.norm_nonneg
    have hr : v.r = Gauss.zero := v.r.norm_eq_zero.1 (by omega)
    exact ⟨0, le_rfl, .done v hr⟩
  | succ n ih =>
    by_cases hr : v.r = Gauss.zero
    · rw [xgcdLoop_of_r_eq_zero t _ hr]
      exact ⟨0, Nat.zero_le _, .done v hr⟩
    · obtain ⟨k, hk, hrun⟩ := ih (xgcdStep t v) (norm_r_xgcdStep_lt t hr h)
      rw [xgcdLoop_succ t n hr]
      exact ⟨k + 1, Nat.succ_le_succ hk, .turn k v _ hr hrun⟩

/-- R102's loop ends in one way only. -/
theorem XgcdRun.unique {t : TieRule} {n n' : Nat} {v w w' : XSlots} (h : XgcdRun t n v w) (h' : XgcdRun t n' v w') :
    w = w' := by
  induction h generalizing n' with
  | done v hr =>
    cases h' with
    | done => rfl
    | turn _ _ _ hr' => exact absurd hr hr'
  | turn _ _ _ hr _ ih =>
    cases h' with
    | done _ hr' => exact absurd hr' hr
    | turn _ _ _ _ h' => exact ih h'

/-- R100's loop ends in one way only. -/
theorem GcdRun.unique {t : TieRule} {n n' : Nat} {x y g g' : Gauss} (h : GcdRun t n x y g) (h' : GcdRun t n' x y g') :
    g = g' := by
  induction h generalizing n' with
  | done =>
    cases h' with
    | done => rfl
    | turn _ _ _ _ hy => exact absurd rfl hy
  | turn _ _ _ _ hy _ ih =>
    cases h' with
    | done => exact absurd rfl hy
    | turn _ _ _ _ _ h' => exact ih h'

/-- A run of R102's loop is one of R100's on the slots `oldR` and `r` (R104). -/
theorem XgcdRun.gcdRun {t : TieRule} {n : Nat} {v w : XSlots} (h : XgcdRun t n v w) : GcdRun t n v.oldR v.r w.oldR := by
  induction h with
  | done v hr => rw [hr]; exact .done _
  | turn n v w hr _ ih => exact .turn n _ _ _ hr ih

/-- GCD's engine computes the slot `oldR` of XGCD's (R104). -/
theorem gcdLoop_eq_oldR_xgcdLoop (t : TieRule) (n : Nat) (v : XSlots) :
    gcdLoop t n v.oldR v.r = (xgcdLoop t n v).oldR := by
  induction n generalizing v with
  | zero => rfl
  | succ n ih =>
    simp only [gcdLoop, xgcdLoop]
    split
    · rfl
    · exact ih (xgcdStep t v)

/-- The two engines give the same `g` (R104). -/
theorem gcdG_eq_oldR_xgcdG (t : TieRule) (a b : Gauss) : gcdG t a b = (xgcdG t a b).oldR :=
  gcdLoop_eq_oldR_xgcdLoop t loopFuel (xgcdInit a b)

section

variable (t : TieRule) (a : Gauss) {b : Gauss} (hb : b.fits)

include hb

/-- From a representable `b` the xgcd_engine ends where R102's loop does, within 64 iterations (R108). -/
theorem xgcdRun_xgcdG : ∃ n ≤ 64, XgcdRun t n (xgcdInit a b) (xgcdG t a b) :=
  xgcdRun_xgcdLoop t loopFuel (xgcdInit a b) (lt_of_le_of_lt (Gauss.norm_le_of_fits hb) (by decide))

/-- From a representable `b` the gcd_engine ends where R100's loop does, within 64 iterations (R108). -/
theorem gcdRun_gcdG : ∃ n ≤ 64, GcdRun t n a b (gcdG t a b) := by
  obtain ⟨n, hn, h⟩ := xgcdRun_xgcdG t a hb
  exact ⟨n, hn, gcdG_eq_oldR_xgcdG t a b ▸ h.gcdRun⟩

end

/-- Settles O54: the engines' loops are runs of the spec's, and end. -/
theorem loopsEndWithin64Iterations : Obligations.LoopsEndWithin64Iterations := by
  intro t a b _ hb
  obtain ⟨n, hn, hgcd⟩ := gcdRun_gcdG t a hb
  obtain ⟨m, hm, hxgcd⟩ := xgcdRun_xgcdG t a hb
  exact ⟨⟨n, hn, _, hgcd⟩, m, hm, _, hxgcd⟩

/-! ### GCD (R100) -/

section

variable {rd rs1 rs2 : Reg} {s t : State}

/-- GCD with a result that fits. -/
theorem exec_gcd_of_fits (rd : Reg) (h : (gcdG Config.tieRule (s.readG rs1) (s.readG rs2)).fits) :
    exec (.gcd rd rs1 rs2) s = .next (s.putG rd (gcdG Config.tieRule (s.readG rs1) (s.readG rs2))).finish :=
  if_pos h

/-- GCD with a result that does not fit (R107). -/
theorem exec_gcd_of_not_fits (rd : Reg) (h : ¬ (gcdG Config.tieRule (s.readG rs1) (s.readG rs2)).fits) :
    exec (.gcd rd rs1 rs2) s = .next (s.raiseCmd .range (.gcd rd rs1 rs2)) :=
  if_neg h

/-- With no fault recorded before it, GCD records one exactly when its result does not fit (R107). -/
theorem fault_exec_gcd_iff (hs : s.fault = false) (h : exec (.gcd rd rs1 rs2) s = .next t) :
    t.fault = true ↔ ¬ (gcdG Config.tieRule (s.readG rs1) (s.readG rs2)).fits := by
  obtain ⟨hf, e⟩ | ⟨hf, e⟩ := execGcd_cases rd rs1 rs2 s <;> cases e.symm.trans h
  · exact iff_of_false (by simp [hs]) (not_not.2 hf)
  · exact iff_of_true rfl hf

/-- With no fault recorded after it, GCD has written its result. -/
theorem readG_exec_gcd (h : exec (.gcd rd rs1 rs2) s = .next t) (ht : t.fault = false) :
    t.readG rd = gcdG Config.tieRule (s.readG rs1) (s.readG rs2) := by
  obtain ⟨hf, e⟩ | ⟨-, e⟩ := execGcd_cases rd rs1 rs2 s <;> cases e.symm.trans h
  · exact s.readG_putG_same_of_fits rd hf
  · exact absurd ht (by simp)

end

/-- Settles O55: the end of a run is the engine's result, since there is a run to it and only one. -/
theorem gcdRunsTheLoopOfR100 : Obligations.GcdRunsTheLoopOfR100 := by
  intro rd rs1 rs2
  have hends (s : State) := gcdRun_gcdG Config.tieRule (s.readG rs1) (s.readG_fits rs2)
  refine ⟨decode_encode (i := .gcd rd rs1 rs2) rfl, fun s => ?_, fun s n g hrun => ?_⟩
  · obtain ⟨k, -, hengine⟩ := hends s
    exact ⟨k, _, hengine⟩
  · obtain ⟨_, -, hengine⟩ := hends s
    obtain rfl := hengine.unique hrun
    exact ⟨fun hf => ⟨_, exec_gcd_of_fits rd hf, rfl, s.readG_putG_same_of_fits rd hf, fun k hk => g_set_other _ _ _ _ hk⟩,
      exec_gcd_of_not_fits rd⟩

/-! ### XGCD (R102) -/

/-- What XGCD writes: `g`, `s` and `t` of the final slots, in this order. -/
def State.putXgcd (k k2 k3 : Reg) (v : XSlots) (s : State) : State :=
  ((s.putG k v.oldR).putG k2 v.oldS).putG k3 v.oldT

/-- Results that fit are read back from pairwise different destinations. -/
theorem State.readG_putXgcd (s : State) {k k2 k3 : Reg} (h2 : k ≠ k2) (h3 : k ≠ k3) (h23 : k2 ≠ k3) {v : XSlots}
    (hv : v.fits) :
    (s.putXgcd k k2 k3 v).readG k = v.oldR ∧ (s.putXgcd k k2 k3 v).readG k2 = v.oldS
      ∧ (s.putXgcd k k2 k3 v).readG k3 = v.oldT := by
  obtain ⟨hR, hS, hT⟩ := hv
  refine ⟨?_, ?_, readG_putG_same_of_fits _ _ hT⟩
  · rw [putXgcd, readG_putG_other _ _ h3.symm, readG_putG_other _ _ h2.symm, readG_putG_same_of_fits _ _ hR]
  · rw [putXgcd, readG_putG_other _ _ h23.symm, readG_putG_same_of_fits _ _ hS]

/-- A register that is none of the three destinations stays. -/
theorem State.putXgcd_g_other (s : State) {k k2 k3 j : Reg} (v : XSlots) (h : j ≠ k) (h2 : j ≠ k2) (h3 : j ≠ k3) :
    (s.putXgcd k k2 k3 v).g[j] = s.g[j] :=
  (g_set_other _ _ _ _ h3).trans ((g_set_other _ _ _ _ h2).trans (g_set_other _ _ _ _ h))

section

variable {rd rd2 rd3 rs1 rs2 : Reg} {s t : State}

/-- XGCD with results that fit. -/
theorem exec_xgcd_of_fits (rd rd2 rd3 : Reg) (h : (xgcdG Config.tieRule (s.readG rs1) (s.readG rs2)).fits) :
    exec (.xgcd rd rd2 rd3 rs1 rs2) s
      = .next (s.putXgcd rd rd2 rd3 (xgcdG Config.tieRule (s.readG rs1) (s.readG rs2))).finish :=
  if_pos h

/-- XGCD with a result that does not fit (R107). -/
theorem exec_xgcd_of_not_fits (rd rd2 rd3 : Reg) (h : ¬ (xgcdG Config.tieRule (s.readG rs1) (s.readG rs2)).fits) :
    exec (.xgcd rd rd2 rd3 rs1 rs2) s = .next (s.raiseCmd .range (.xgcd rd rd2 rd3 rs1 rs2)) :=
  if_neg h

/-- With no fault recorded after it, XGCD has written its results, which fit. -/
theorem exec_xgcd_of_no_fault (h : exec (.xgcd rd rd2 rd3 rs1 rs2) s = .next t) (ht : t.fault = false) :
    (xgcdG Config.tieRule (s.readG rs1) (s.readG rs2)).fits
      ∧ t = (s.putXgcd rd rd2 rd3 (xgcdG Config.tieRule (s.readG rs1) (s.readG rs2))).finish := by
  obtain ⟨hf, e⟩ | ⟨-, e⟩ := execXgcd_cases rd rd2 rd3 rs1 rs2 s <;> cases e.symm.trans h
  · exact ⟨hf, rfl⟩
  · exact absurd ht (by simp)

end

/-- Settles O56: the end of a run is the engine's slots, since there is a run to them and only one. -/
theorem xgcdRunsTheLoopOfR102 : Obligations.XgcdRunsTheLoopOfR102 := by
  intro rd rd2 rd3 rs1 rs2 h2 h3 h23
  have hdecode := decode_encode (i := .xgcd rd rd2 rd3 rs1 rs2) (by simp [Instr.wellFormed, h2, h3, h23])
  have hends (s : State) := xgcdRun_xgcdG Config.tieRule (s.readG rs1) (s.readG_fits rs2)
  refine ⟨hdecode, fun s => ?_, fun s n w hrun => ?_⟩
  · obtain ⟨k, -, hengine⟩ := hends s
    exact ⟨k, _, hengine⟩
  · obtain ⟨_, -, hengine⟩ := hends s
    obtain rfl := hengine.unique hrun
    refine ⟨fun hR hS hT => ?_, exec_xgcd_of_not_fits rd rd2 rd3⟩
    obtain ⟨hrd, hrd2, hrd3⟩ := s.readG_putXgcd h2 h3 h23 ⟨hR, hS, hT⟩
    exact ⟨_, exec_xgcd_of_fits rd rd2 rd3 ⟨hR, hS, hT⟩, rfl, hrd, hrd2, hrd3, fun k => s.putXgcd_g_other _⟩

/-! ### The greatest common divisor (R101) -/

/-- Divisibility is that of Mathlib's ring of Gaussian integers. -/
theorem Gauss.divides_iff (d x : Gauss) : d.Divides x ↔ d.toGI ∣ x.toGI := by
  constructor
  · rintro ⟨k, rfl⟩
    exact ⟨k.toGI, toGI_mul d k⟩
  · rintro ⟨k, hk⟩
    exact ⟨⟨k.re, k.im⟩, toGI_injective (hk.trans (toGI_mul d ⟨k.re, k.im⟩).symm)⟩

theorem Gauss.divides_zero (d : Gauss) : d.Divides Gauss.zero := (divides_iff _ _).2 (dvd_zero _)

theorem Gauss.divides_refl (d : Gauss) : d.Divides d := (divides_iff _ _).2 dvd_rfl

/-- Zero divides only zero. -/
theorem Gauss.zero_divides_iff (x : Gauss) : Gauss.zero.Divides x ↔ x = Gauss.zero := by
  rw [divides_iff, toGI_zero, zero_dvd_iff, toGI_eq_zero]

/-- One division step keeps the common divisors of a pair (R101): the dividend is the divisor times the quotient plus the
remainder. -/
theorem divides_remG_iff (t : TieRule) {x y c : Gauss} (hc : c.Divides y) : c.Divides (remG t x y) ↔ c.Divides x := by
  rw [Gauss.divides_iff] at hc
  rw [Gauss.divides_iff, Gauss.divides_iff, remG, Gauss.toGI_sub, Gauss.toGI_mul]
  exact dvd_sub_left (hc.mul_right _)

/-- The divisors of where R100's loop ends are the common divisors of the pair it starts from. -/
theorem GcdRun.divides_iff {t : TieRule} {n : Nat} {x y g : Gauss} (h : GcdRun t n x y g) (c : Gauss) :
    c.Divides g ↔ c.Divides x ∧ c.Divides y := by
  induction h with
  | done x => exact (and_iff_left c.divides_zero).symm
  | turn n x y g _ _ ih => rw [ih, and_comm, and_congr_left fun hy => divides_remG_iff t hy]

/-- Settles O57: `GcdRun.divides_iff`, for the common divisor `g` itself, for any, and for zero. -/
theorem gcdIsAGreatestCommonDivisor : Obligations.GcdIsAGreatestCommonDivisor := by
  intro s t rd rs1 rs2 _ h ht
  obtain ⟨n, -, hrun⟩ := gcdRun_gcdG Config.tieRule (s.readG rs1) (s.readG_fits rs2)
  rw [← readG_exec_gcd h ht] at hrun
  obtain ⟨ha, hb⟩ := (hrun.divides_iff _).1 (Gauss.divides_refl _)
  refine ⟨ha, hb, fun c hca hcb => (hrun.divides_iff c).2 ⟨hca, hcb⟩, ?_, fun hcop => ?_⟩
  · have hzero := hrun.divides_iff Gauss.zero
    simp only [Gauss.zero_divides_iff] at hzero
    exact hzero
  · exact (predIsUnit_iff _).2 (hcop _ ha hb)

/-! ### The Bézout identities (R103) -/

/-- The identities of R103, for the operands `a` and `b`. -/
structure XSlots.Bezout (a b : Gauss) (v : XSlots) : Prop where
  oldR : v.oldR = (v.oldS.mul a).add (v.oldT.mul b)
  r : v.r = (v.s.mul a).add (v.t.mul b)

theorem xgcdInit_bezout (a b : Gauss) : (xgcdInit a b).Bezout a b where
  oldR := Gauss.toGI_injective (by simp [xgcdInit])
  r := Gauss.toGI_injective (by simp [xgcdInit])

/-- An iteration takes the same multiple of the second identity from the first. -/
theorem XSlots.Bezout.step {a b : Gauss} {v : XSlots} (h : v.Bezout a b) (t : TieRule) : (xgcdStep t v).Bezout a b where
  oldR := h.r
  r := by
    have hold := congrArg Gauss.toGI h.oldR
    have hr := congrArg Gauss.toGI h.r
    apply Gauss.toGI_injective
    simp only [xgcdStep, remG, Gauss.toGI_add, Gauss.toGI_sub, Gauss.toGI_mul] at hold hr ⊢
    linear_combination hold - (quotG t v.oldR v.r).toGI * hr

theorem iterate_xgcdStep_bezout (t : TieRule) (a b : Gauss) (n : Nat) :
    ((xgcdStep t)^[n] (xgcdInit a b)).Bezout a b := by
  induction n with
  | zero => exact xgcdInit_bezout a b
  | succ n ih => rw [Function.iterate_succ_apply']; exact ih.step t

/-- A run of R102's loop of `n` iterations is `n` times its body. -/
theorem XgcdRun.eq_iterate {t : TieRule} {n : Nat} {v w : XSlots} (h : XgcdRun t n v w) : w = (xgcdStep t)^[n] v := by
  induction h with
  | done => rfl
  | turn _ _ _ _ _ ih => exact ih

/-- The identities hold for the slots the xgcd_engine ends with. -/
theorem xgcdG_bezout (t : TieRule) (a : Gauss) {b : Gauss} (hb : b.fits) : (xgcdG t a b).Bezout a b := by
  obtain ⟨n, -, hrun⟩ := xgcdRun_xgcdG t a hb
  exact hrun.eq_iterate ▸ iterate_xgcdStep_bezout t a b n

/-- Settles O58: the identities hold in every iteration, so in the last one, whose slots XGCD writes. -/
theorem bezoutIdentityHolds : Obligations.BezoutIdentityHolds := by
  constructor
  · rintro t a b n _ rfl
    exact ⟨(iterate_xgcdStep_bezout t a b n).oldR, (iterate_xgcdStep_bezout t a b n).r⟩
  · intro s t rd rd2 rd3 rs1 rs2 h2 h3 h23 _ h ht
    obtain ⟨hfits, rfl⟩ := exec_xgcd_of_no_fault h ht
    obtain ⟨hrd, hrd2, hrd3⟩ := s.readG_putXgcd h2 h3 h23 hfits
    rw [State.readG_finish, State.readG_finish, State.readG_finish, hrd, hrd2, hrd3]
    exact (xgcdG_bezout _ _ (s.readG_fits rs2)).oldR

/-! ### XGCD and GCD agree (R104) -/

/-- The operands of R107's example in `G[1]` and `G[2]`: coprime, with a cofactor that is out of range. -/
def cofactorOutOfRange : State := (State.reset.putG 1 ⟨-2 ^ 31, -2 ^ 31 + 1⟩).putG 2 ⟨1, 1⟩

/-- R107's example, under either tie rule: `g` fits and `t` does not. -/
theorem cofactorOutOfRange_results (t : TieRule) :
    (gcdG t (cofactorOutOfRange.readG 1) (cofactorOutOfRange.readG 2)).fits
      ∧ ¬ (xgcdG t (cofactorOutOfRange.readG 1) (cofactorOutOfRange.readG 2)).fits := by
  cases t <;> decide

/-- Settles O59: GCD's result is XGCD's `oldR`, and `cofactorOutOfRange` is a state in which only XGCD faults. -/
theorem xgcdAndGcdAgree : Obligations.XgcdAndGcdAgree := by
  constructor
  · intro s t w rd rd2 rd3 rd' rs1 rs2 h2 h3 h23 hs hx hg
    have hfault := fault_exec_gcd_iff hs hg
    refine ⟨fun ht => ?_, by rwa [← gcdG_eq_oldR_xgcdG]⟩
    obtain ⟨hfits, rfl⟩ := exec_xgcd_of_no_fault hx ht
    have hw : w.fault = false := by
      rw [← Bool.not_eq_true, hfault, not_not, gcdG_eq_oldR_xgcdG]
      exact hfits.1
    obtain ⟨hrd, -⟩ := s.readG_putXgcd h2 h3 h23 hfits
    exact ⟨hw, by rw [State.readG_finish, hrd, readG_exec_gcd hg hw, gcdG_eq_oldR_xgcdG]⟩
  · obtain ⟨hg, hx⟩ := cofactorOutOfRange_results Config.tieRule
    exact ⟨cofactorOutOfRange, _, _, rfl, exec_xgcd_of_not_fits 3 4 5 hx, exec_gcd_of_fits 6 hg, rfl, rfl, rfl⟩

/-! ### The range of GCD (R107) -/

/-- Under HALF_TO_EVEN every remainder of representable values is representable (R96), so where the loop ends is. -/
theorem GcdRun.fits {n : Nat} {x y g : Gauss} (h : GcdRun .halfToEven n x y g) (hx : x.fits) (hy : y.fits) : g.fits := by
  induction h with
  | done => exact hx
  | turn n x y g hy0 _ ih =>
    obtain ⟨hrem, -⟩ := remainderOutOfRangeOnlyAtOneDivisor x y hx hy hy0
    exact ih hy hrem

/-- Settles O60: `GcdRun.fits` for HALF_TO_EVEN; R107's example is evaluated under each rule. -/
theorem gcdOutOfRangeOnlyAwayFromZero : Obligations.GcdOutOfRangeOnlyAwayFromZero := by
  refine ⟨fun a b ha hb => ?_, by decide, by decide⟩
  obtain ⟨n, -, hrun⟩ := gcdRun_gcdG .halfToEven a hb
  exact hrun.fits ha hb

/-! ### Which command raises which fault (R109, R112) -/

/-- A command that cannot fault leaves the fault record (R112). -/
theorem exec_keeps_record {i : Instr} {s t : State} (hi : canFault i = false) (h : exec i s = .next t) :
    t.fault = s.fault ∧ t.fcode = s.fcode ∧ t.finfo = s.finfo := by
  cases i with
  | div | gcd | xgcd => exact absurd hi (by simp [canFault])
  | _ => cases h; exact ⟨rfl, rfl, rfl⟩

/-- The code of a fault that command `i` raises from `s` (R112). -/
def faultCodeOf (s : State) : Instr → FaultCode
  | .div _ _ _ rs2 => if s.readG rs2 = Gauss.zero then .divzero else .range
  | _ => .range

/-- With no fault recorded before it, a command that faults records the code `faultCodeOf` (R109, R112). -/
theorem fcode_of_exec_fault {i : Instr} {s t : State} (hs : s.fault = false) (h : exec i s = .next t)
    (ht : t.fault = true) : t.fcode = (faultCodeOf s i).bits := by
  cases i with
  | div rd rd2 rs1 rs2 =>
    obtain ⟨hz, e⟩ | ⟨hz, -, e⟩ | ⟨-, -, -, e⟩ := execDiv_cases rd rd2 rs1 rs2 s <;> cases e.symm.trans h
    · simp [hs, faultCodeOf, hz]
    · simp [hs, faultCodeOf, hz]
    · simp [hs] at ht
  | gcd rd rs1 rs2 =>
    obtain ⟨-, e⟩ | ⟨-, e⟩ := execGcd_cases rd rs1 rs2 s <;> cases e.symm.trans h
    · simp [hs] at ht
    · simp [hs, faultCodeOf]
  | xgcd rd rd2 rd3 rs1 rs2 =>
    obtain ⟨-, e⟩ | ⟨-, e⟩ := execXgcd_cases rd rd2 rd3 rs1 rs2 s <;> cases e.symm.trans h
    · simp [hs] at ht
    · simp [hs, faultCodeOf]
  | _ => cases h; simp [hs] at ht

/-- DIV's code is DIVZERO exactly when the divisor is zero (R97). -/
theorem faultCodeOf_div_eq_divzero_iff (s : State) (rd rd2 rs1 rs2 : Reg) :
    (faultCodeOf s (.div rd rd2 rs1 rs2)).bits = FaultCode.divzero.bits ↔ s.readG rs2 = Gauss.zero := by
  by_cases hz : s.readG rs2 = Gauss.zero <;> simp [faultCodeOf, hz, FaultCode.bits]

/-- Settles O28: `exec_keeps_record` for the commands that cannot fault, `fcode_of_exec_fault` for the three that can. -/
theorem commandsFaultOnlyAsR112Lists : Obligations.CommandsFaultOnlyAsR112Lists := by
  intro i s t hs h
  refine ⟨fun hi => hs ▸ exec_keeps_record hi h, ?_, ?_, ?_⟩
  · rintro rd rs1 rs2 rfl
    exact fcode_of_exec_fault hs h
  · rintro rd rd2 rd3 rs1 rs2 rfl
    exact fcode_of_exec_fault hs h
  · rintro rd rd2 rs1 rs2 rfl ht
    rw [fcode_of_exec_fault hs h ht]
    exact faultCodeOf_div_eq_divzero_iff s rd rd2 rs1 rs2

end Sys2Proof.Machine
end

section
/-! Proofs of the statements of 60_exceptions.md: no step stops the machine (R111), what taking a fault does (R117, R118), the block
while FAULT = 1 (R120), and the invariant of every step (R15, R22, R24, R112). -/

namespace Sys2Proof.Machine

open Sys2Proof

/-! ### Steps that stop nothing and steps that do nothing (R111, R130) -/

/-- Settles O4: three of the four steps answer a next state as they stand, and a command does by `exec_completes`. -/
theorem everyStepAnswersANextState : Obligations.EveryStepAnswersANextState := by
  intro s
  obtain ⟨-, e⟩ | ⟨_, -, -, -, e⟩ | ⟨_, i, -, -, -, -, e⟩ | ⟨_, _, -, -, -, -, e⟩ := step_cases s
  · exact ⟨_, e⟩
  · exact ⟨_, e⟩
  · obtain ⟨t, he, -⟩ := exec_completes i s
    exact ⟨t, e.trans he⟩
  · exact ⟨_, e⟩

/-- Settles O23: an idle step serves the port, and an empty port serves nothing. -/
theorem idleBlockLosesNothing : Obligations.IdleBlockLosesNothing := by
  intro s hp h
  rw [step_idle hp, State.serve, h]

/-! ### Taking a fault (R117, R118) -/

/-- Settles O26: the two branches of `raise`, by whether a fault is recorded. -/
theorem raisingAFaultFollowsR117 : Obligations.RaisingAFaultFollowsR117 := by
  intro s c w
  exact ⟨fun h => by simp [State.raise, h], fun h => by simp [State.raise, h]⟩

/-- Settles O27: a command that sets FAULT ends in `raiseCmd`, which is R117's update with the command's word. -/
theorem commandFaultsArePrecise : Obligations.CommandFaultsArePrecise := by
  intro i s t h0 h ht
  obtain ⟨hfault, -⟩ | ⟨-, c, hc, rfl⟩ := exec_fault_cases h
  · simp [hfault, h0] at ht
  · have hfcode : (s.raiseCmd c i).fcode = c.bits := by simp [h0]
    rw [hfcode]
    exact ⟨(raisingAFaultFollowsR117 s c (encode i)).1 h0, hc.imp (congrArg FaultCode.bits) (congrArg FaultCode.bits)⟩

/-! ### While FAULT = 1 (R120) -/

/-- Settles O15: the CMD write is R41's ignored case; reads and the other writes do not look at FAULT. -/
theorem faultHaltIgnoresCommands : Obligations.FaultHaltIgnoresCommands := by
  intro s rest hp hf
  refine ⟨fun u h => (commandWriteFollowsR41 s u rest hp h).1 hf, fun off hoff h => step_read_idle hp hoff h,
    fun k u h => ?_, fun k u h => ?_, fun u h => ?_⟩
  · rw [step_write_idle hp (gRe_offset_aligned k) h, winReg_gRe, State.writeReg]
  · rw [step_write_idle hp (gIm_offset_aligned k) h, winReg_gIm, State.writeReg]
  · obtain ⟨-, -, hwrite⟩ := statusRegisterFollowsR19
    rw [hwrite s u rest hp h]
    cases h2 : u[2] <;> cases h3 : u[3] <;> simp [h2, h3, hf]

/-! ### What a command leaves of the fault record and of NORM (R112, R15) -/

/-- A command that leaves FAULT = 0 leaves the whole record. -/
theorem record_of_exec_without_fault {i : Instr} {s t : State} (h : exec i s = .next t) (ht : t.fault = false) :
    t.fcode = s.fcode ∧ t.finfo = s.finfo := by
  cases i with
  | div rd rd2 rs1 rs2 =>
    obtain ⟨-, e⟩ | ⟨-, -, e⟩ | ⟨-, -, -, e⟩ := execDiv_cases rd rd2 rs1 rs2 s <;> cases e.symm.trans h
    · cases ht
    · cases ht
    · exact ⟨rfl, rfl⟩
  | gcd rd rs1 rs2 =>
    obtain ⟨-, e⟩ | ⟨-, e⟩ := execGcd_cases rd rs1 rs2 s <;> cases e.symm.trans h
    · exact ⟨rfl, rfl⟩
    · cases ht
  | xgcd rd rd2 rd3 rs1 rs2 =>
    obtain ⟨-, e⟩ | ⟨-, e⟩ := execXgcd_cases rd rd2 rd3 rs1 rs2 s <;> cases e.symm.trans h
    · exact ⟨rfl, rfl⟩
    · cases ht
  | _ => cases h; exact ⟨rfl, rfl⟩

/-- Only DIV has the code DIVZERO; every other fault of a command is RANGE. -/
theorem faultCodeOf_cases (s : State) (i : Instr) :
    (faultCodeOf s i = .divzero ∧ ∃ rd rd2 rs1 rs2, i = .div rd rd2 rs1 rs2) ∨ faultCodeOf s i = .range := by
  cases i with
  | div rd rd2 rs1 rs2 =>
    by_cases hz : s.readG rs2 = Gauss.zero
    · exact .inl ⟨if_pos hz, rd, rd2, rs1, rs2, rfl⟩
    · exact .inr (if_neg hz)
  | _ => exact .inr rfl

/-- The record a command leaves when it sets FAULT is one of R112's: its word decodes to it. -/
theorem faultRecord_of_exec {u : Word} {i : Instr} {s t : State} (hd : decode u = .ok i) (h0 : s.fault = false)
    (h : exec i s = .next t) (ht : t.fault = true) : t.FaultRecord := by
  obtain ⟨hfault, -⟩ | ⟨hcan, c, -, rfl⟩ := exec_fault_cases h
  · simp [hfault, h0] at ht
  · obtain ⟨rfl, -⟩ := encodeOfDecodeIsTheWord u i hd
    have hfinfo : (s.raiseCmd c i).finfo = encode i := by simp [h0]
    have hfcode := fcode_of_exec_fault h0 h ht
    rw [← hfinfo] at hd
    obtain ⟨hc, rd, rd2, rs1, rs2, rfl⟩ | hc := faultCodeOf_cases s i <;> rw [hc] at hfcode
    · exact .inr (.inl ⟨hfcode, rd, rd2, rs1, rs2, hd⟩)
    · exact .inr (.inr (.inl ⟨hfcode, i, hd, hcan⟩))

/-- A command keeps NORM in `[0, 2^63]`: the NORM command writes such a value, the others write none (R15). -/
theorem norm_le_of_exec {i : Instr} {s t : State} (h : exec i s = .next t) (hs : s.norm.toNat ≤ 2 ^ 63) :
    t.norm.toNat ≤ 2 ^ 63 := by
  by_cases hi : i.mnemonic = "NORM"
  · obtain ⟨rs1, rfl⟩ := Instr.mnemonic_eq_norm hi
    cases h
    exact toNat_written_norm_le (s.readG_fits rs1)
  · rw [(keepsFrame_of_exec h).norm hi]; exact hs

/-! ### The invariant

Each operation a step is made of keeps `State.Inv`; an update of the port, of `rdata`, of WRAP or of the Gaussian registers leaves
every field it speaks of, so `{ h with }` carries it over. -/

/-- The state at reset has the invariant (R132). -/
theorem State.reset_inv : State.reset.Inv where
  idConstant := rfl
  busyFollowsSlot := rfl
  idleHasNoLatency _ := rfl
  slotHoldsAnAcceptedCommand _ h := nomatch h
  noFaultNoRecord _ := ⟨rfl, rfl⟩
  faultHasRecord h := nomatch h
  normBounded := Nat.zero_le _

namespace State.Inv

variable {s t : State}

/-- Taking an input off the port and delivering a word keeps the invariant. -/
theorem input (h : s.Inv) (rest : List PortInput) (v : Word) : State.Inv { s with port := rest, rdata := v } := { h with }

/-- Taking a fault keeps the invariant when the record it makes, if it makes one, is one of R112's. -/
theorem raise (h : s.Inv) {c : FaultCode} {w : Word} (hrec : s.fault = false → (s.raise c w).FaultRecord) :
    (s.raise c w).Inv where
  idConstant := h.idConstant
  busyFollowsSlot := rfl
  idleHasNoLatency _ := rfl
  slotHoldsAnAcceptedCommand _ hu := nomatch hu
  noFaultNoRecord hf := nomatch hf
  faultHasRecord _ := by
    cases hf : s.fault with
    | false => exact hrec hf
    | true => simpa [State.FaultRecord, hf] using h.faultHasRecord hf
  normBounded := h.normBounded

/-- An access that is not well-formed records ACCESS and an offset, which is below 256 (R34). -/
theorem raiseAccess (h : s.Inv) (off : Offset) : (s.raise .access (off.setWidth 32)).Inv := by
  refine h.raise fun hf => .inr (.inr (.inr ?_))
  obtain ⟨hfcode, hfinfo, -⟩ := State.raise_first .access (off.setWidth 32) hf
  rw [hfcode, hfinfo, BitVec.toNat_setWidth]
  exact ⟨rfl, (Nat.mod_le _ _).trans_lt off.isLt⟩

/-- The CMD write of an idle block (R41): the slot gets a legal word only, and only with FAULT = 0. -/
theorem issue (h : s.Inv) (hp : s.pending = none) (u : Word) : (s.issue u).Inv := by
  have hlast : State.Inv { s with cmdlast := u } :=
    { h with slotHoldsAnAcceptedCommand := fun v hv => by simp [hp] at hv }
  obtain ⟨-, e⟩ | ⟨h0, hl, e⟩ | ⟨h0, hl, e⟩ := s.issue_cases u <;> rw [e]
  · exact hlast
  · refine hlast.raise fun hf => .inl ?_
    obtain ⟨hfcode, hfinfo, -⟩ := State.raise_first .illegal u hf
    rw [hfcode, hfinfo]
    exact ⟨rfl, hl⟩
  · exact
    { h with
      busyFollowsSlot := rfl
      idleHasNoLatency := nofun
      slotHoldsAnAcceptedCommand := fun v hv => by cases hv; exact ⟨hl, rfl, h0⟩ }

/-- A STATUS write keeps the fault record or clears it whole (R19, R121). -/
theorem writeStatus (h : s.Inv) (u : Word) : (s.writeStatus u).Inv := by
  have hclear : s.clearFault.Inv :=
    { h with
      slotHoldsAnAcceptedCommand := fun v hv => by
        obtain ⟨hl, hlast, -⟩ := h.slotHoldsAnAcceptedCommand v hv
        exact ⟨hl, hlast, rfl⟩
      noFaultNoRecord := fun _ => ⟨rfl, rfl⟩
      faultHasRecord := nofun }
  cases h2 : u[2] <;> cases h3 : u[3] <;> simp only [State.writeStatus, h2, h3]
  · exact h
  · exact hclear
  · exact { h with }
  · exact { hclear with }

/-- A write to an idle block keeps the invariant, whatever register it reaches (R38). -/
theorem writeReg (h : s.Inv) (hp : s.pending = none) (u : Word) (r : WinReg) : (s.writeReg u r).Inv := by
  cases r with
  | cmd => exact h.issue hp u
  | status => exact h.writeStatus u
  | _ => exact { h with }

/-- Serving the port keeps the invariant; while a command executes only a reset is served this way. -/
theorem serve (h : s.Inv) (hcase : s.resetNext = true ∨ s.pending = none) : s.serve.Inv := by
  obtain ⟨-, e⟩ | ⟨_, _, rest, -, -, e⟩ | ⟨off, _, rest, -, -, e⟩ | ⟨off, _, u, rest, hport, -, e⟩
    | ⟨off, _, _, rest, -, -, e⟩ | ⟨rest, -, e⟩ := s.serve_cases <;> rw [e]
  · exact h
  · exact h.input rest _
  · exact (h.input rest 0#32).raiseAccess off
  · have hp : s.pending = none := hcase.resolve_left (by simp [State.resetNext, hport])
    exact (h.input rest s.rdata).writeReg hp u (winReg off)
  · exact (h.input rest s.rdata).raiseAccess off
  · exact { State.reset_inv with }

/-- A STATUS read served while a command executes takes one read off what is left of its latency (R40). -/
theorem serveWhileBusy (h : s.Inv) (hb : s.readsWhileBusy = true) : s.serveWhileBusy.Inv := by
  obtain ⟨rest, hport⟩ := s.statusReadNext_iff.1 (Bool.and_eq_true_iff.1 hb).1
  rw [State.serveWhileBusy, State.serve, hport]
  exact { h with idleHasNoLatency := fun hp => by rw [h.idleHasNoLatency hp] }

/-- The command in the slot keeps the invariant: it empties the slot, and its fault is the first since the last clear. -/
theorem exec {u : Word} {i : Instr} (hinv : s.Inv) (hp : s.pending = some u) (hd : decode u = .ok i)
    (h : exec i s = .next t) : t.Inv := by
  have hdone := completes_of_exec h
  obtain ⟨-, -, h0⟩ := hinv.slotHoldsAnAcceptedCommand u hp
  exact
    { idConstant := hdone.id.trans hinv.idConstant
      busyFollowsSlot := by rw [hdone.notBusy, hdone.slotEmpty]; rfl
      idleHasNoLatency := fun _ => hdone.noLatency
      slotHoldsAnAcceptedCommand := fun v hv => by simp [hdone.slotEmpty] at hv
      noFaultNoRecord := fun ht => by
        obtain ⟨hfcode, hfinfo⟩ := record_of_exec_without_fault h ht
        rw [hfcode, hfinfo]
        exact hinv.noFaultNoRecord h0
      faultHasRecord := faultRecord_of_exec hd h0 h
      normBounded := norm_le_of_exec h hinv.normBounded }

end State.Inv

/-- Settles O3: each of the four steps keeps the invariant; the last, a word in the slot that is not legal, cannot happen under it. -/
theorem everyStepKeepsTheInvariant : Obligations.EveryStepKeepsTheInvariant := by
  intro s t hinv h
  obtain ⟨hcase, e⟩ | ⟨u, -, -, hb, e⟩ | ⟨u, i, -, hp, -, hd, e⟩ | ⟨u, _, -, hp, -, hd, -⟩ := step_cases s
  · cases e.symm.trans h; exact hinv.serve hcase
  · cases e.symm.trans h; exact hinv.serveWhileBusy hb
  · exact hinv.exec hp hd (e.symm.trans h)
  · obtain ⟨i, hi⟩ := (isLegal_iff u).1 (hinv.slotHoldsAnAcceptedCommand u hp).1
    simp [hd] at hi

end Sys2Proof.Machine
end

section
/-! Proofs of the statements of 70_reset_and_hazards.md: the values after reset (R132), and a reset that abandons the executing
command (R131, R133). -/

namespace Sys2Proof.Machine

open Sys2Proof

/-- Every Gaussian register is 0 after reset (R132). -/
@[simp] theorem State.readG_reset (k : Reg) : State.reset.readG k = ⟨0, 0⟩ := by
  have hg : State.reset.g[k] = ⟨0#32, 0#32⟩ := Vector.getElem_replicate k.isLt
  rw [State.readG, hg]; rfl

/-- A reset at the head of the port is taken at once: it waits for no command, and the command's meaning plays no part (R133). -/
theorem step_reset {s : State} {rest : List PortInput} (h : s.port = .reset :: rest) :
    step s = .next { s with port := rest }.takeReset := by
  have hr : s.resetNext = true := by rw [State.resetNext, h]
  have hserve : s.serve = { s with port := rest }.takeReset := by rw [State.serve, h]
  rw [step, hr, hserve]

/-- Settles O1: `readG_reset` for the Gaussian registers; each other value stands in its field of `State.reset`. -/
theorem resetLeavesTheValuesOfR132 : Obligations.ResetLeavesTheValuesOfR132 :=
  ⟨State.readG_reset, rfl, rfl, rfl, rfl, rfl, rfl, rfl, rfl, rfl, rfl⟩

/-- Settles O2: this is `State.reset_inv`, the base case of the invariant that O3 carries through every step. -/
theorem invariantHoldsAtReset : Obligations.InvariantHoldsAtReset := State.reset_inv

/-- Settles O22: the step is `takeReset`, which keeps of the old state only the port, `rdata` and `seq`. -/
theorem resetAbandonsTheCommand : Obligations.ResetAbandonsTheCommand := fun _ _ h => step_reset h

end Sys2Proof.Machine
end
